-- ==== Sys2Proof/Word.lean ====
section
/-! DEFINITION. The word types of the tray (spec/00_scope.md R5, R6). -/

namespace Sys2Proof

/-- A byte. -/
abbrev Byte := BitVec 8

/-- A value of a 48-bit tick counter (R49). -/
abbrev Tick := BitVec 48

/-- A Q die of the tray, Q0 to Q3. -/
abbrev DieId := Fin 4

/-- A port of a Q die, 0 to 71 (spec/03_quezerik_die.md, Table 03-1). -/
abbrev PortId := Fin 72

/-- A caddy bay, C0 to C7. -/
abbrev BayId := Fin 8

/-- A 16-byte link control word (spec/04_links_lanes_caddies.md R131). -/
abbrev CtlWord := BitVec 128

/-- A public key in SEC 1 uncompressed form, 97 bytes (spec/11 Table 11-5). Byte 0 is the least significant. -/
abbrev PubKey := BitVec 776

end Sys2Proof
end

