-- ==== Sys2Proof/Syntax.lean ====
section
/-! DEFINITION. The commands of the block: one constructor of `Instr` for each row of spec/opcode_table.json, with
the operands the spec gives the step, and the operand types they use. -/

namespace Sys2Proof

/-- The channels of Table 11-2. `ib d` is the in-band channel of die `d` (IB0 to IB3). -/
inductive Channel where
  | eth0 | eth1 | mspA | mspB
  | ib (d : DieId)
deriving DecidableEq, Repr

/-- The FMP frame header of a request as it was received (spec/11 Table 11-3), with what the checks of Table 11-4
need to know of its bytes. The command's payload fields are the operands of its constructor. -/
structure Frame where
  /-- The channel on which the frame arrived. -/
  chan : Channel
  /-- The die port on which an in-band frame entered the tray; of no meaning on a management channel. -/
  port : PortId
  /-- `MAGIC` is right and the frame has at least 32 bytes (check 1). -/
  magicOk : Bool
  /-- `FCRC` matches and `PAYLOAD_LEN` is within the received bytes (check 2). -/
  crcOk : Bool
  version : Byte
  slot : Byte
  tag : BitVec 16
  /-- The header's `PART`; 0xFF for none. -/
  hpart : Byte
  /-- `CRED_SLOT`: key slot of a signed frame, 0xFF for an unsigned one. -/
  cred : Byte
  route : Byte
  /-- `PAYLOAD_LEN`, the 96 B of a signature included. -/
  payloadLen : BitVec 16
  tokenEpoch : BitVec 32
  cmdSeq : BitVec 32
  /-- `ORIGIN` of a frame relayed by a leaf tray (R420, R421). -/
  origin : BitVec 16
  /-- The bytes that a signature covers: header bytes 0 to 27 and the payload before the signature (R399). -/
  signed : List Byte
  /-- The 96 B signature of a signed frame: r, then s, most significant byte first (R399). -/
  sig : List Byte
  /-- The IPv6 fragments in which an Ethernet datagram arrived, each its offset and length in bytes; none when it was not fragmented (R391). -/
  frags : List (Nat × Nat)
  /-- Source address and port of an Ethernet datagram (R392). -/
  addr : BitVec 144
deriving DecidableEq, Repr

/-- One record of `route.stage`: `DST` and the 8 B entry of Table 05-1. -/
structure StageRec where
  dst : BitVec 16
  entry : BitVec 64
deriving DecidableEq, Repr

/-- One record of `dir.write` (spec/13 R473). -/
structure DirRec where
  op : Byte
  seqId : Byte
  noAge : Bool
  block : BitVec 32
  owner : BitVec 16
  age : BitVec 32
deriving DecidableEq, Repr

/-- The payload of `link.sweep` (Table 12-7). -/
structure SweepReq where
  die : Byte
  port : Byte
  lanes : Byte
  side : Byte
  sweepId : Byte
  phaseMin : Byte
  phaseMax : Byte
  phaseStep : Byte
  voffMin : Byte
  voffMax : Byte
  voffStep : Byte
  dwell : BitVec 16
deriving DecidableEq, Repr

/-- One MSP transaction as the manager drove it (spec/14 Table 14-7, R521): the header fields, whether the two CRCs
match, and how many bytes of the reply segment the manager clocked. -/
structure MspXfer where
  /-- false: MSP-A. true: MSP-B. -/
  b : Bool
  mslot : Byte
  mlen : BitVec 16
  mrlen : BitVec 16
  /-- `MHCRC` matches. -/
  hdrOk : Bool
  /-- `MPCRC` matches (R518). -/
  payOk : Bool
  /-- Bytes of the reply segment that the manager clocked. -/
  clocked : Nat
deriving DecidableEq, Repr

/-- One reading of every tray-wide sensor of Table 17-4. -/
structure Sensors where
  /-- Coolant inlet, 0.1 degrees Celsius. -/
  inlet : Int
  /-- Coolant outlet, 0.1 degrees Celsius. -/
  outlet : Int
  /-- Coolant flow, 0.01 L/min. -/
  flow : Nat
  /-- Busbar voltage, 10 mV. -/
  vin : Nat
  /-- Input power, W. -/
  pin : Nat
  /-- Junction of Q0 to Q3, 0.1 degrees Celsius. -/
  qj0 : Int
  qj1 : Int
  qj2 : Int
  qj3 : Int
  /-- FC4 junction, 0.1 degrees Celsius. -/
  fj : Int
  /-- Cold rail temperature, 0.1 degrees Celsius (R611). -/
  rail : Int
  /-- Leak sensors 0 to 3. -/
  leak : BitVec 4
deriving DecidableEq, Repr

/-- What an uncorrectable memory error hits (spec/05 R223, spec/16 Table 16-5). -/
inductive EccSite where
  /-- The packet buffer: the packet of this buffer number. -/
  | packet (id : Nat)
  /-- The pot of this number. -/
  | pot (n : Fin 64)
  /-- The directory entry of this index. -/
  | entry (i : Nat)
deriving DecidableEq, Repr

/-- A place of a pour (spec/07 Table 07-3). -/
inductive Place where
  | level1 | level2 | level3 | delivery
deriving DecidableEq, Repr

/-- The name of a pour at a die: group, half (true: all-gather) and `POUR`. -/
structure PourKey where
  group : BitVec 12
  gather : Bool
  pour : BitVec 20
deriving DecidableEq, Repr

/-- A codeword or a bridge frame as it reaches a port's receiver (spec/04 R121 to R124, R130). -/
inductive Line where
  /-- A codeword of an external link: PAM4 levels of lanes 0 to 3 as they reach the receiver. -/
  | code (levels : List (List (BitVec 2)))
  /-- The bits of a bridge frame. -/
  | frame (bits : List Bool)
deriving DecidableEq, Repr

/-- A port of a die. -/
abbrev DiePort := DieId × PortId

/-- The rest of a packet as it arrives behind its header: the bytes of its data, and the time of its header since the tick boundary in
units of 1/16 ns. -/
structure Arrival where
  data : List Byte
  time : Nat
deriving DecidableEq, Repr

/-- The commands of the block. The docstring of a constructor names the rule of its row. -/
inductive Instr where
  -- Identity, bring-up and tick commands (spec/12)
  | idRead (f : Frame)                                                                   -- R13
  | idCaddy (f : Frame) (bay : Byte)                                                     -- R398
  | idWrite (f : Frame) (role rack slot : Byte)                                          -- R431
  | idIdentify (f : Frame) (identify : Byte)                                             -- R435
  | bootStatus (f : Frame)                                                               -- R535
  | bootReady (f : Frame)                                                                -- R436
  | tickConfig (f : Frame) (priority period : Byte)                                      -- R437
  | tickStatus (f : Frame)                                                               -- R66
  -- Link commands (spec/12)
  | linkStatus (f : Frame) (die firstPort count : Byte)                                  -- R142
  | linkConfigHold (f : Frame) (die port : Byte)                                         -- R439
  | linkConfigRelease (f : Frame) (die port : Byte)                                      -- R440
  | linkConfigDisable (f : Frame) (die port : Byte)                                      -- R439
  | linkRetrainWiden (f : Frame) (die port : Byte)                                       -- R149
  | linkRetrainFull (f : Frame) (die port : Byte)                                        -- R442
  | linkRetrainNarrow (f : Frame) (die port lanes : Byte)                                -- R442
  | linkPortmap (f : Frame) (die : Byte) (cabled : BitVec 64)                            -- R444
  | linkSweep (f : Frame) (q : SweepReq)                                                 -- R445
  | linkSweepResult (f : Frame) (die port sweepId lane : Byte) (firstPoint count : BitVec 16) -- R173
  -- Route commands (spec/12)
  | routeConfig (f : Frame) (part mask mode : Byte) (linger : BitVec 16)                 -- R448
  | routeStage (f : Frame) (part mask version : Byte) (recs : List StageRec)             -- R207
  | routeSeal (f : Frame) (part mask version : Byte)                                     -- R208
  | routeDiscard (f : Frame) (part mask version : Byte)                                  -- R452
  | routeFlip (f : Frame) (part mask : Byte) (flipTick : Tick)                           -- R209
  | routeStatus (f : Frame) (part : Byte)                                                -- R214
  | routeRead (f : Frame) (die version : Byte) (firstDst count : BitVec 16)              -- R178
  | routeOwner (f : Frame) (part mask : Byte) (firstDst count : BitVec 16)               -- R447
  | routeReachRead (f : Frame) (mask leaf : Byte)                                        -- R454
  | routeReachWrite (f : Frame) (mask leaf : Byte) (value : BitVec 32)                   -- R454
  -- Partition commands (spec/12)
  | partOpen (f : Frame) (part mask : Byte)                                              -- R353
  | partClose (f : Frame) (part mask : Byte)                                             -- R356
  | partGrantSeg (f : Frame) (part die seg : Byte)                                       -- R362
  | partReturnSeg (f : Frame) (part die seg : Byte)                                      -- R361
  | partDirRange (f : Frame) (part die : Byte) (base size : BitVec 32)                   -- R363
  | partPortsAssign (f : Frame) (part die port : Byte)                                   -- R357
  | partPortsUnassign (f : Frame) (part die port : Byte)                                 -- R457
  | partRestart (f : Frame) (part mask : Byte)                                           -- R353
  | partConfig (f : Frame) (part mask setMask mode failMode circCap : Byte) (shares : BitVec 64)
      (lease : BitVec 32)                                                                -- R458
  | partStatus (f : Frame) (part : Byte)                                                 -- R571
  | partQuiesce (f : Frame) (part mask vcMask : Byte)                                    -- R213
  | partResume (f : Frame) (part mask vcMask : Byte)                                     -- R462
  -- Manager commands (spec/11)
  | mgrNonce (f : Frame)                                                                 -- R402
  | mgrKey (f : Frame) (nonce : BitVec 128) (key : PubKey)                               -- R403
  | mgrClaim (f : Frame) (epoch : BitVec 32)                                             -- R407
  | mgrBeat (f : Frame)                                                                  -- R405
  | mgrRelease (f : Frame)                                                               -- R410
  | mgrStatus (f : Frame)                                                                -- R405
  -- Group, circuit and directory commands (spec/13)
  | grpOpen (f : Frame) (part mask : Byte) (group : BitVec 16) (control : BitVec 128) (weights : BitVec 1024) -- R466
  | grpClose (f : Frame) (part mask : Byte) (group : BitVec 16)                          -- R468
  | grpStatus (f : Frame) (part die : Byte) (group : BitVec 16)                          -- R261
  | circSetup (f : Frame) (part die : Byte) (circuit : BitVec 16) (entry : BitVec 64) (lease : BitVec 32) -- R469
  | circRenew (f : Frame) (part mask : Byte) (circuit : BitVec 16) (lease : BitVec 32)   -- R470
  | circRelease (f : Frame) (part mask : Byte) (circuit : BitVec 16)                     -- R471
  | circRead (f : Frame) (part die : Byte) (first count : BitVec 16)                     -- R199
  | dirSeq (f : Frame) (part mask seqId : Byte) (desc : BitVec 128)                      -- R326
  | dirWrite (f : Frame) (part mask : Byte) (recs : List DirRec)                         -- R332
  | dirRangeRefresh (f : Frame) (part mask seqId : Byte) (first : BitVec 32) (count : BitVec 16)
      (age : BitVec 32)                                                                  -- R333
  | dirRangeEvict (f : Frame) (part mask seqId : Byte) (first : BitVec 32) (count : BitVec 16) -- R475
  | dirRead (f : Frame) (part die seqId : Byte) (first : BitVec 32) (count : BitVec 16)  -- R667
  | congConfig (f : Frame) (part mask vc setMask mode : Byte) (mark throttle : BitVec 32) -- R476
  -- Power and fault commands (spec/13)
  | pwrStateT0 (f : Frame)                                                               -- R591
  | pwrStateT1 (f : Frame)                                                               -- R585
  | pwrStateT2 (f : Frame)                                                               -- R587
  | pwrStateT3 (f : Frame)                                                               -- R589
  | pwrRamp (f : Frame) (rackLimit : BitVec 32) (trayShare paceShare : BitVec 16)        -- R478
  | pwrStatus (f : Frame)                                                                -- R580
  | faultRemap (f : Frame) (part mask : Byte) (rank spare : BitVec 16) (epoch : BitVec 32) (effect : Tick) -- R479
  | faultAlias (f : Frame) (part die : Byte) (firstRank count : BitVec 16)               -- R563
  | faultReach (d : DieId) (p : PortId) (crcOk : Bool) (plane spine leaf state : Byte) (decl : Tick) -- R481
  -- Counters, trace, diagnostics, events (spec/13)
  | ctrRead (f : Frame) (ids : List (BitVec 32))                                         -- R482
  | traceRead (f : Frame) (offset : BitVec 32) (length : BitVec 16)                      -- R483
  | diagRead (f : Frame) (die window : Byte) (addr : BitVec 32) (count : BitVec 16)      -- R484
  | diagWrite (f : Frame) (die window : Byte) (addr : BitVec 32) (words : List (BitVec 32)) -- R484
  | diagLoop (f : Frame) (die port : Byte) (count len : BitVec 16)                       -- R485
  | loopbackComplete (d : DieId)                                                         -- R485
  | evtAck (f : Frame) (ackSeq : BitVec 32)                                              -- R486
  | evtSubscribe (f : Frame) (part : Byte)                                               -- R487
  | evtUnsubscribe (f : Frame) (part : Byte)                                             -- R487
  -- Fuses and firmware (spec/13)
  | fuseRead (f : Frame)                                                                 -- R369
  | fuseKeyProgram (f : Frame) (slot : Byte) (hash : BitVec 384)                         -- R372
  | fuseKeyRevoke (f : Frame) (slot : Byte)                                              -- R372
  | fuseRollbackAdvance (f : Frame) (floor : Byte)                                       -- R379
  | fusePrivilegeGrant (f : Frame) (cls bit : Byte)                                      -- R376
  | fusePrivilegeDeny (f : Frame) (cls bit : Byte)                                       -- R376
  | fuseDebugUnlock (f : Frame)                                                          -- R381
  | fuseDebugLock (f : Frame)                                                            -- R381
  | fuseAudit (f : Frame) (first count : BitVec 16)                                      -- R386
  | fuseUseComplete (readBackOk : Bool)                                                  -- R371
  | fwWrite (f : Frame) (offset : BitVec 32) (data : List Byte)                          -- R489
  | fwVerify (f : Frame)                                                                 -- R490
  | fwVerifyComplete (bank : Bool)                                                       -- R490
  | fwActivateNextReset (f : Frame)                                                      -- R540
  | fwActivateNow (f : Frame)                                                            -- R491
  | fwStatus (f : Frame)                                                                 -- R540
  -- Relay and the management Ethernet ports (spec/11)
  | fmpRelay (f : Frame) (opcode : BitVec 16) (payload : List Byte)                      -- R420
  | fmpRelayResponse (d : DieId) (p : PortId) (tag : BitVec 16) (status : BitVec 16) (payload : List Byte) -- R420
  | icmpv6Echo (eth1 : Bool) (src : BitVec 128) (ident seqNo : BitVec 16) (data : List Byte) -- R390
  | neighborDiscovery (eth1 : Bool) (src target : BitVec 128)                            -- R390
  -- The Manager Sideband Port (spec/14)
  | mspPoll (x : MspXfer)                                                                -- R521
  | mspWrite (x : MspXfer) (offset : BitVec 16) (data : List Byte)                       -- R529
  | mspDoorbell (x : MspXfer)                                                            -- R529
  | mspReadResp (x : MspXfer) (offset : BitVec 16)                                       -- R526
  | mspReadEvent (x : MspXfer) (evSeq : BitVec 32)                                       -- R531
  | mspSetLink (x : MspXfer) (lanes mode : Byte)                                         -- R530
  | mspStatus (x : MspXfer)                                                              -- R534
  | mspReplyReady (b : Bool)                                                             -- R526
  -- The steep tick (spec/02). `node` 0 to 3: a die; 4: the FC4 always-on block.
  | tickBoundary (node : Fin 5)                                                          -- R49
  | tickMarker (d : DieId) (p : PortId) (w : CtlWord) (arrival : Int)                    -- R59
  | markerMissing (d : DieId) (p : PortId)                                               -- R55
  | reparentWaitEnd (d : DieId)                                                          -- R68
  | tickLock (d : DieId)                                                                 -- R66
  | holdoverLimit (d : DieId)                                                            -- R70
  | tickClaimSend                                                                        -- R73
  | tickClaim (d : DieId) (p : PortId) (w : CtlWord)                                     -- R75
  | masterTakeOffice                                                                     -- R76
  -- Links (spec/04, spec/06)
  | delayProbePeriodic (d : DieId) (p : PortId) (time : BitVec 48)                       -- R133
  | flowWord (d : DieId) (p : PortId) (w : CtlWord)                                      -- R230
  | ack (d : DieId) (p : PortId) (w : CtlWord)                                           -- R140
  | nak (d : DieId) (p : PortId) (w : CtlWord)                                           -- R139
  | stomp (q : DiePort) (w : CtlWord)                                                    -- R115
  | trainId (d : DieId) (p : PortId) (w : CtlWord)                                       -- R142
  | widthReq (d : DieId) (p : PortId) (w : CtlWord)                                      -- R144
  | delayProbe (d : DieId) (p : PortId) (w : CtlWord) (turnaround : BitVec 32)           -- R133
  | delayProbeReply (d : DieId) (p : PortId) (w : CtlWord) (arrival : BitVec 48)         -- R133
  | sweepStart (d : DieId) (p : PortId) (w : CtlWord)                                    -- R171
  | sweepKeepalive (d : DieId) (p : PortId) (w : CtlWord)                                -- R175
  | sweepPoint (d : DieId) (p : PortId) (w : CtlWord)                                    -- R171
  | sweepEnd (d : DieId) (p : PortId) (w : CtlWord)                                      -- R177
  | sweepAborted (d : DieId) (p : PortId) (w : CtlWord)                                  -- R174
  | sweepBusy (d : DieId) (p : PortId) (w : CtlWord)                                     -- R176
  | sweepKeepaliveSend (d : DieId) (p : PortId)                                          -- R172
  | sweepFarTimeout (d : DieId) (p : PortId)                                             -- R175
  | sweepPointDone (d : DieId) (p : PortId) (errors : BitVec 16)                         -- R171
  -- Block `pos` of a codeword under the number `seq`; `after` is the first word of the block that follows the codeword, where that is
  -- a control block.
  | dataBlock (q : DiePort) (seq : BitVec 16) (l : Line) (pos : Fin 20) (after : Option CtlWord)-- R136
  | codewordUncorrectable (q : DiePort) (l : Line)                                       -- R138
  | retryTimeout (d : DieId) (p : PortId)                                                -- R139
  | laneLoss (d : DieId) (p : PortId) (lane : Fin 4)                                     -- R148
  | laneLock (d : DieId) (p : PortId) (lane : Fin 4)                                     -- R143
  | switchStart (d : DieId) (p : PortId)                                                 -- R144
  | switchComplete (d : DieId) (p : PortId)                                              -- R145
  | switchTimeout (d : DieId) (p : PortId)                                               -- R150
  | linkFail (d : DieId) (p : PortId)                                                    -- R150
  | trainBoundExpiry (d : DieId) (p : PortId)                                            -- R664
  | farSignalDetect (d : DieId) (p : PortId)                                             -- R141
  -- `found`: polarity inversion of lanes 0 to 3 and lane-order reversal (bit 4), as training found them.
  | trainComplete (q : DiePort) (found : BitVec 5)                                       -- R141
  | linkHoldDone (d : DieId) (p : PortId) (timeUp : Bool)                                -- R439
  -- Caddies (spec/04)
  | caddyPresence (c : BayId)                                                            -- R161
  | caddyIdRead (c : BayId) (eeprom : List Byte)                                         -- R162
  | caddyDomainBGood (c : BayId)                                                         -- R161
  | caddyLeverOpen (c : BayId)                                                           -- R163
  | caddyLeavingDone (c : BayId) (timeUp : Bool)                                         -- R164
  | caddyWithdrawn (c : BayId)                                                           -- R166
  | caddyLeverClose (c : BayId)                                                          -- R167
  | caddyTempSample (c : BayId) (temp : BitVec 16) (status : Byte)                       -- R158
  -- Packets (spec/03, spec/05 to spec/09, spec/11). `h` is the 32 B header as received, bit b of the header bit b of `h`.
  | packetIngress (d : DieId) (p : PortId) (h : BitVec 256) (a : Arrival)                -- R95
  | spray (d : DieId) (p : PortId) (h : BitVec 256) (a : Arrival)                        -- R191
  | circuitData (d : DieId) (p : PortId) (h : BitVec 256) (a : Arrival)                  -- R200
  | posReq (d : DieId) (p : PortId) (h : BitVec 256) (a : Arrival)                       -- R339
  | notResidentConvert (d : DieId) (id : Nat)                                            -- R342
  | posRsp (d : DieId) (p : PortId) (h : BitVec 256) (a : Arrival)                       -- R345
  | echoNote (d : DieId) (p : PortId) (h : BitVec 256) (a : Arrival)                     -- R245
  | contrib (d : DieId) (p : PortId) (h : BitVec 256) (a : Arrival)                      -- R268
  | gatherIn (d : DieId) (p : PortId) (h : BitVec 256) (a : Arrival)                     -- R266
  | blendPacket (d : DieId) (p : PortId) (h : BitVec 256) (a : Arrival)                  -- R284
  | blendAbort (d : DieId) (p : PortId) (h : BitVec 256) (a : Arrival)                   -- R294
  | diag (d : DieId) (h : BitVec 256) (a : Arrival)                                      -- R34
  | mbxReq (d : DieId) (p : PortId) (h : BitVec 256) (a : Arrival)                       -- R419
  | mbxRsp (d : DieId) (p : PortId) (h : BitVec 256) (a : Arrival)                       -- R418
  | mbxEvt (d : DieId) (p : PortId) (h : BitVec 256) (a : Arrival)                       -- R422
  -- Egress and notices (spec/03, spec/05, spec/11). `ns` is the time since the tick boundary in units of 1/16 ns.
  | egressSelect (d : DieId) (p : PortId) (ns : Nat)                                     -- R101
  | circuitSlotSend (d : DieId) (p : PortId) (slot : Fin 16)                             -- R201
  | reachNoticeSend (spine leaf : Byte)                                                  -- R187
  | noticeRepeat                                                                         -- R422
  -- What falls due at tick boundaries (spec/02 R83 to R86 and the chapters of Table 02-6)
  | collOutEffect (d : DieId)                                                            -- R281
  | routeFlipEffect (d : DieId) (part : BitVec 4)                                        -- R210
  | routeRetire (d : DieId) (part : BitVec 4)                                            -- R210
  | leaseExpiry (d : DieId) (circuit : BitVec 12)                                        -- R203
  | gapTimeout (d : DieId) (part : BitVec 4) (src dst : BitVec 11)                       -- R196
  | drainedEntry (d : DieId) (part : BitVec 4) (vc : BitVec 3)                           -- R214
  | xonGrant (d : DieId) (part : BitVec 4) (vc : BitVec 3)                               -- R235
  | xonIdleRevoke (d : DieId) (p : PortId) (part : BitVec 4) (vc : BitVec 3)             -- R236
  | throttleEngage (d : DieId) (p : PortId) (part : BitVec 4) (vc : BitVec 3)            -- R251
  | throttleEnd (d : DieId) (p : PortId) (part : BitVec 4) (vc : BitVec 3)               -- R254
  | oversubWindowEnd (d : DieId)                                                         -- R255
  | blendStageStart (d : DieId) (k : PourKey) (place : Place)                            -- R297
  | pourTimeout (d : DieId) (k : PourKey) (place : Place)                                -- R295
  | abortRecordExpiry (d : DieId) (k : PourKey)                                          -- R271
  | potZeroDone (d : DieId)                                                              -- R290
  | segmentZeroDone (d : DieId)                                                          -- R367
  | partOpenReady (d : DieId) (part : BitVec 4)                                          -- R354
  | remapEffect (d : DieId) (part : BitVec 4)                                            -- R567
  | partFence (d : DieId) (part : BitVec 4)                                              -- R570
  | fenceDiscard (d : DieId) (part : BitVec 4)                                           -- R570
  -- Faults (spec/16)
  | diePowerLost (d : DieId)                                                             -- R572
  | eccError (d : DieId) (site : EccSite)                                                -- R223
  | watchdogExpiry (core : Fin 4) (code : BitVec 32)                                     -- R575
  | fc4Reset                                                                             -- R576
  | tokenLapse                                                                           -- R405
  | tokenClaimDecide                                                                     -- R408
  | eventRetransmit                                                                      -- R416
  -- Bring-up and power (spec/15, spec/17, spec/20)
  | inputSwitchClose                                                                     -- R647
  | bootImageCheck                                                                       -- R539
  | fuseCheck                                                                            -- R542
  | fullServiceEntry                                                                     -- R552
  | paceStep                                                                             -- R595
  | pwrTransitionDone                                                                    -- R477
  | busbarDropout                                                                        -- R649
  | alwaysOnLoss                                                                         -- R650
  | sensorSample (r : Sensors)                                                           -- R604
  | throttleCapStep                                                                      -- R606
  | laneGroupShed (d : DieId)                                                            -- R607
  | shutdownExecute                                                                      -- R608
  | gradeClear                                                                           -- R609
  | wake (b : Bool)                                                                      -- R590
  -- FPSM, trace and cores (spec/14, spec/18)
  | xipMiss (core : Fin 4) (addr : BitVec 32)                                            -- R508
  | flashOpComplete                                                                      -- R510
  | coreSleep (core : Fin 4)                                                             -- R629
  | coreOff (core : Fin 4)                                                               -- R630
  | coreWake (core : Fin 4)                                                              -- R631
  | traceSync                                                                            -- R627
  | dieCorePowerGood (d : DieId)                                                         -- R545
  | laneGroupReturn                                                                      -- R609
  | throttleCapLift                                                                      -- R609
deriving DecidableEq, Repr

end Sys2Proof
end

