-- ==== Sys2Proof/Decode.lean ====
section
/-! DEFINITION. The command that a word spells by the bits of spec/opcode_table.json. No row of that table gives bits
(spec/98_reader.md: rows with fixed bits 0, rows with fields 0), so no word spells a command. -/

namespace Sys2Proof

/-- The command that an `nbits`-wide word spells by the table's bits: none, since no row gives bits. -/
def decodeTableWord (_nbits _w : Nat) : Option Instr := none

end Sys2Proof
end

