-- ==== Sys2Proof/Config.lean ====
section
/-! DEFINITION. What an implementation fixes and the manual does not state, and the free values of the model. Nothing here has
a body that Lean could evaluate: a statement about a free value holds for every value of it. -/

namespace Sys2Proof.Config

/-- The nonces that `mgr.nonce` returns (spec/11 R402), by index of draw. -/
opaque nonce : Nat → BitVec 128

/-- MAC address of management Ethernet port 0 and 1 (spec/12 Table 12-2). -/
opaque mac : Bool → BitVec 48

/-- A word that `diag.read` returns (spec/13 R484), by address and index of draw. -/
opaque diagWord : BitVec 32 → Nat → BitVec 32

/-- Receive margin scores that the die's receivers measure (spec/04 Table 04-3), by index of draw. -/
opaque margin : Nat → BitVec 16

/-- `DST` and `SRC` bits that the manual does not state of a packet between two dies of a group tree (spec/07 Table 07-4,
R286), by `GROUP` and `POUR`: bits [10:0] for `DST`, [21:11] for `SRC`. -/
opaque treeIds : BitVec 12 → BitVec 20 → BitVec 22

/-- `DST`, `SRC`, `EPOCH`, `PART` and `TAG` that the manual does not state of a mailbox packet of the FC4 (spec/11 R418), by 72 x die +
port: bits [10:0] `DST`, [21:11] `SRC`, [22] `EPOCH`, [26:23] `PART`, [42:27] `TAG`. -/
opaque mailIds : Nat → BitVec 43

/-- `CMD_SEQ` of an in-band frame of the FC4, which the manual states for signed requests and the events of a management channel only
(spec/11 Table 11-3), by `OPCODE` and `TAG`. -/
opaque mailSeq : BitVec 16 → BitVec 16 → BitVec 32

/-- A place that lies on another die started its stage a tick before its last input arrived, which the receiving die cannot tell
(spec/02 R80, spec/07 R297), by index of draw. -/
opaque senderLate : Nat → Bool

/-- The two bytes that make a result of 2 bytes modulo 4 up to a `LEN` of R93, which the manual does not state (spec/07 R292), by
`GROUP` and `POUR`. -/
opaque shareFill : BitVec 12 → BitVec 20 → BitVec 16

/-- Identity fields that `id.read` returns while no identity record is in force (spec/12 Table 12-2), by offset. -/
opaque noIdent : Nat → BitVec 8

/-- Ticks beyond the least 2 that lie between the sending of a WIDTH_REQ and its `SWITCH_TICK` (spec/04 R144), by tick of
sending. -/
opaque switchLead : BitVec 48 → BitVec 8

/-- `DETAIL` sensor and reading of the `pwr.thermal` that reports a cleared grade (spec/17 R605, R609), by index of draw:
bits [7:0] sensor, [23:8] reading. -/
opaque clearDetail : Nat → BitVec 24

/-- Core and fault code that `fc4.fault` names after a reset for which the always-on block recorded none (spec/16 R576), by
index of draw: bits [7:0] core, [39:8] fault code. -/
opaque noFault : Nat → BitVec 40

/-- Fuse bits that a use whose read-back failed did program (spec/10 R371), by index of draw. -/
opaque fuseStuck : Nat → BitVec 4096

/-- `REC_SEQ` that `fuse.audit_mismatch` names for a field whose COMPLETE records do not match its bits (spec/10 R386), by index
of draw. -/
opaque mismatchSeq : Nat → BitVec 32

/-- `CAUSE` of the `fault.endpoint_lost` that is raised again after an FC4 reset (spec/16 R576), by index of draw. -/
opaque lostRow : Nat → BitVec 8

/-- Header of the DIAG packets that `diag.loop` sends, but for `TYPE` and `LEN` (spec/13 R485). -/
opaque diagHdr : BitVec 256

/-- Payload byte at an offset of every DIAG packet that `diag.loop` sends (spec/13 R485). -/
opaque diagByte : Nat → BitVec 8

end Sys2Proof.Config
end

