-- ==== Sys2Proof/Machine/Bits.lean ====
section
/-! DEFINITION. Fields of words, byte order, tick comparison and the two CRCs (spec/00_scope.md R5, R6;
spec/02_steep_tick.md R50, R54; spec/03_quezerik_die.md R91). -/

namespace Sys2Proof.Machine

/-- Bits [lo + len - 1 : lo] of a word. -/
abbrev fld {n : Nat} (w : BitVec n) (lo len : Nat) : BitVec len := w.extractLsb' lo len

/-- Bit `i` of a word. -/
abbrev bit {n : Nat} (w : BitVec n) (i : Nat) : Bool := w.getLsbD i

/-- A word with bits [lo + len - 1 : lo] replaced by `v`. -/
def setFld {n : Nat} (w : BitVec n) (lo len : Nat) (v : BitVec len) : BitVec n :=
  (w &&& ~~~((BitVec.ofNat n (2 ^ len - 1)) <<< lo)) ||| ((v.setWidth n) <<< lo)

/-- A word with bit `i` set to `b`. -/
def setBit {n : Nat} (w : BitVec n) (i : Nat) (b : Bool) : BitVec n :=
  if b then w ||| (1#n <<< i) else w &&& ~~~(1#n <<< i)

/-- A Boolean as one bit. -/
abbrev b1 (b : Bool) : BitVec 1 := BitVec.ofBool b

/-- The number of 1 bits of a word. -/
def popCount {n : Nat} (w : BitVec n) : Nat := ((List.range n).filter fun i => w.getLsbD i).length

/-- The positions of the 1 bits of a word, rising. -/
def bitsOf {n : Nat} (w : BitVec n) : List Nat := (List.range n).filter fun i => w.getLsbD i

/-- `n` bytes of a number, least significant first (R6). -/
def le (n v : Nat) : List Byte := (List.range n).map fun i => BitVec.ofNat 8 (v >>> (8 * i))

/-- Bytes as a number, first byte least significant (R6). -/
def leNat (bs : List Byte) : Nat := bs.foldr (fun b a => b.toNat + 256 * a) 0

/-- A list cut or padded with zero bytes to `n` bytes (R7). -/
def padTo (n : Nat) (bs : List Byte) : List Byte := (bs ++ List.replicate (n - bs.length) 0#8).take n

/-- `t` is later than `u`: `(t - u) mod 2^48` lies between 1 and 2^47 - 1 (R50). -/
def later (t u : Tick) : Bool :=
  let d := (t - u).toNat
  decide (1 ≤ d) && decide (d < 2 ^ 47)

/-- `t` is `u` or later than `u` (R50, R85). -/
def reached (t u : Tick) : Bool := t == u || later t u

/-- Order of 8-bit epochs: `e` is later than `f` when `(e - f) mod 256` lies between 1 and 127 (R59). -/
def laterEpoch (e f : Byte) : Bool :=
  let d := (e - f).toNat
  decide (1 ≤ d) && decide (d ≤ 127)

/-- Order of spray sequences (R191): 1 to 2^15 - 1 after. -/
def laterSeq (a b : BitVec 16) : Bool :=
  let d := (a - b).toNat
  decide (1 ≤ d) && decide (d < 2 ^ 15)

/-- One bit step of CRC-16 with polynomial 0x1021, most significant bit first. -/
def crc16Step (c : Nat) : Nat := if c ≥ 0x8000 then ((c <<< 1) ^^^ 0x1021) % 0x10000 else c <<< 1

/-- One byte of CRC-16. -/
def crc16Byte (c : Nat) (b : Byte) : Nat :=
  (List.range 8).foldl (fun x _ => crc16Step x) (c ^^^ (b.toNat <<< 8))

/-- CRC-16 of R54: initial value 0xFFFF, not reflected, no final XOR. -/
def crc16 (bs : List Byte) : Nat := bs.foldl crc16Byte 0xFFFF

/-- One bit step of CRC-32C, reflected (polynomial 0x1EDC_6F41). -/
def crc32Step (c : Nat) : Nat := if c % 2 = 1 then (c >>> 1) ^^^ 0x82F63B78 else c >>> 1

/-- One byte of CRC-32C. -/
def crc32Byte (c : Nat) (b : Byte) : Nat :=
  (List.range 8).foldl (fun x _ => crc32Step x) (c ^^^ b.toNat)

/-- CRC-32C of R91: reflected, initial value and final XOR 0xFFFF_FFFF. -/
def crc32c (bs : List Byte) : Nat := (bs.foldl crc32Byte 0xFFFFFFFF) ^^^ 0xFFFFFFFF

end Sys2Proof.Machine
end

