-- ==== Sys2Proof/Machine/Ecdsa.lean ====
section
/-! DEFINITION. ECDSA verification over P-384 with SHA-384, which spec/00_scope.md R12 and Table 00-4 name for the signatures of frames
(spec/11 R399, R400) and of firmware images (spec/13 Table 13-6, spec/15 R540). PRESUMED: the curve and the algorithm are taken from the
named standards, FIPS 186 and SP 800-186 (log entry 8). -/

namespace Sys2Proof.Machine

/-- The field prime of P-384. -/
def ecP : Nat := 2 ^ 384 - 2 ^ 128 - 2 ^ 96 + 2 ^ 32 - 1
/-- The order of the base point. -/
def ecN : Nat := 0xffffffffffffffffffffffffffffffffffffffffffffffffc7634d81f4372ddf581a0db248b0a77aecec196accc52973
/-- The constant of the curve equation y² = x³ - 3x + b. -/
def ecB : Nat := 0xb3312fa7e23ee7e4988e056be3f82d19181d9c6efe8141120314088f5013875ac656398d8a2ed19d2a85c8edd3ec2aef
/-- First coordinate of the base point. -/
def ecGx : Nat := 0xaa87ca22be8b05378eb1c71ef320ad746e1d3b628ba79b9859f741e082542a385502f25dbf55296c3a545e3872760ab7
/-- Second coordinate of the base point. -/
def ecGy : Nat := 0x3617de4a96262c6f5d9e98bf9292dc29f8f41dbd289a147ce9da3113b5f0b8c00a60b1ce1d7e819d7a431d7c90ea0e5f

/-- A point in Jacobian coordinates: x/z² and y/z³, with z 0 at infinity. -/
structure EcPoint where
  x : Nat
  y : Nat
  z : Nat
deriving DecidableEq, Repr

/-- Difference in the field. -/
def subP (a b : Nat) : Nat := (a + ecP - b) % ecP

/-- Product in the field. -/
def mulP (a b : Nat) : Nat := a * b % ecP

/-- Twice a point. -/
def EcPoint.double (q : EcPoint) : EcPoint :=
  if q.z = 0 then q
  else
    let d := mulP q.z q.z
    let g := mulP q.y q.y
    let b := mulP q.x g
    let a := mulP 3 (mulP (subP q.x d) ((q.x + d) % ecP))
    let x := subP (mulP a a) (mulP 8 b)
    { x := x, y := subP (mulP a (subP (mulP 4 b) x)) (mulP 8 (mulP g g)), z := mulP 2 (mulP q.y q.z) }

/-- The point at infinity. -/
def EcPoint.zero : EcPoint := { x := 1, y := 1, z := 0 }

/-- Sum of two points. -/
def EcPoint.add (p q : EcPoint) : EcPoint :=
  if p.z = 0 then q
  else if q.z = 0 then p
  else
    let zp := mulP p.z p.z
    let zq := mulP q.z q.z
    let u := mulP p.x zq
    let s := mulP p.y (mulP zq q.z)
    let h := subP (mulP q.x zp) u
    let r := subP (mulP q.y (mulP zp p.z)) s
    if h = 0 then (if r = 0 then p.double else EcPoint.zero)
    else
      let hh := mulP h h
      let v := mulP u hh
      let h3 := mulP h hh
      let x := subP (subP (mulP r r) h3) (mulP 2 v)
      { x := x, y := subP (mulP r (subP v x)) (mulP s h3), z := mulP h (mulP p.z q.z) }

/-- `u` times `g` plus `v` times `q`, from bit `n - 1` down, with `gq` the sum of the two points and `a` what the bits above gave. -/
def EcPoint.mul2 (u v : Nat) (g q gq : EcPoint) : Nat → EcPoint → EcPoint
  | 0, a => a
  | n + 1, a =>
    let d := a.double
    let e := match u.testBit n, v.testBit n with
      | true, true => d.add gq
      | true, false => d.add g
      | false, true => d.add q
      | false, false => d
    EcPoint.mul2 u v g q gq n e

/-- `a` to the power of the low `n` bits of `e`, modulo `m`, with `r` what the bits above gave. -/
def powMod (m a e : Nat) : Nat → Nat → Nat
  | 0, r => r
  | n + 1, r => powMod m a e n (let s := r * r % m; if e.testBit n then s * a % m else s)

/-- The inverse modulo a prime. -/
def invMod (m a : Nat) : Nat := powMod m (a % m) (m - 2) 384 1

/-- The coordinates of a public key that is the 97 B uncompressed form of a point of the curve: 0x04, then x and y, each 48 B, most
significant byte first (spec/11 Table 11-5). -/
def keyPoint (k : PubKey) : Option (Nat × Nat) :=
  let b := le 97 k.toNat
  let x := beNat ((b.drop 1).take 48)
  let y := beNat (b.drop 49)
  if b.take 1 = [0x04] ∧ x < ecP ∧ y < ecP ∧ mulP y y = (mulP x (mulP x x) + 3 * (ecP - x) + ecB) % ecP then some (x, y) else none

/-- The signature (r, s) of a hash verifies against a public key. -/
def ecdsaOk (k : PubKey) (hash r s : Nat) : Bool :=
  match keyPoint k with
  | none => false
  | some p =>
    decide (0 < r ∧ r < ecN ∧ 0 < s ∧ s < ecN) &&
      (let w := invMod ecN s
       let q : EcPoint := { x := p.1, y := p.2, z := 1 }
       let g : EcPoint := { x := ecGx, y := ecGy, z := 1 }
       let t := EcPoint.mul2 (hash * w % ecN) (r * w % ecN) g q (g.add q) 384 EcPoint.zero
       let i := invMod ecP t.z
       t.z != 0 && mulP t.x (mulP i i) % ecN == r)

/-- A 96 B signature over bytes verifies against a public key: r, then s, each 48 B, most significant byte first (R399). -/
def signedBy (k : PubKey) (bytes sig : List Byte) : Bool :=
  ecdsaOk k (beNat (sha384 bytes)) (beNat (sig.take 48)) (beNat ((sig.drop 48).take 48))

end Sys2Proof.Machine
end

