-- ==== Sys2Proof/Machine/State.lean ====
section
/-! DEFINITION. The state of one Shuhel ST256 Switch Tray as plain data: the four Q dies, the FC4 and its always-on
block, the caddy bays, the power and cooling subsystem, the serial ports, and the queue of waiting commands. Every field's
comment names its width, the file and rule of spec/ that gives it, and its reset value. A `Map` lists entries in
strictly rising order of key, and a key it does not list reads as the default its reader names. -/

namespace Sys2Proof.Machine

/-- Sparse data by key, keys strictly rising. A key that is not listed reads as the default its reader names. -/
abbrev Map (α : Type) := List (Nat × α)

/-- Why a step stops. Raised by no command of the table on operands that are such a command. -/
inductive Fault where
  /-- Raised by a packet row whose operand is no packet of that row's kind (WellFormed.lean), which is no command of the
  table. Safe: the machine stops where no hardware step exists. -/
  | illFormed (row : String)
deriving DecidableEq, Repr

/-- Why the model has no meaning for a command. -/
inductive Refusal where
  /-- Raised by an arm of Dispatch.lean whose command has no meaning yet. Safe: the machine stops. -/
  | notModelled (mnemonic : String)
deriving DecidableEq, Repr

/-! ### Names -/

/-- Tick states of a node (spec/02 Table 02-3), in the codes of Table 12-5. -/
inductive TickState where
  | unlocked | locked | holdover | tickFault
deriving DecidableEq, Repr

/-- Link states (spec/04 Table 04-4), in the codes of Table 12-6. -/
inductive LinkState where
  | disabled | detect | train | activePw | active | switching | sweep | held
deriving DecidableEq, Repr

/-- Partition states on a die (spec/10 Table 10-2). -/
inductive PartState where
  | closed | reopening | opened | fenced
deriving DecidableEq, Repr

/-- States of a route table version (spec/05 Table 05-5), in the codes of Table 12-8. -/
inductive VerState where
  | active | linger | retired | staging | sealed
deriving DecidableEq, Repr

/-- Stages of bring-up (spec/15 Table 15-1). -/
inductive Stage where
  | alwaysOn | boot | fuseCheck | managerWait | preWarm | full
deriving DecidableEq, Repr

/-- States of a caddy bay (spec/12 Table 12-3). -/
inductive CaddyState where
  | empty | domainA | refused | active | leaving | readyToRemove
deriving DecidableEq, Repr

/-- The core domain of a die (spec/17 Table 17-2). -/
inductive CorePower where
  | off | on | retention
deriving DecidableEq, Repr

/-- Power conditions of an FC4 core (spec/18 R628). -/
inductive CoreCond where
  | run | sleep | off
deriving DecidableEq, Repr

/-- States of an MSP mailbox slot (spec/14 Table 14-8). -/
inductive SlotState where
  | empty | written | busy | done
deriving DecidableEq, Repr

/-- Status codes (spec/11 Table 11-8). -/
inductive Status where
  | ok | accepted | busy | badVersion | unknownOpcode | badLength | badField | slotBusy | badRoute | dieOff
  | noCredential | keyUnknown | slotRevoked | badSignature | replayed | notTokenHolder | staleToken | tokenHeld
  | lostRace | notPrivileged | partMismatch | debugLocked | invalidForRole | partState | portsAssigned | portAssigned
  | noSegment | quotaShort | portInService | versionBusy | notSealed | tooLate | notDrained | groupShape | groupFormat
  | noPots | slotTaken | overCap | dirRange | dirOverlap | noSeq | outOfRange | ownerPart | slotUsed | lastKey
  | fuseExhausted | rollbackAhead | internal
deriving DecidableEq, Repr

/-! ### Packets and events -/

/-- The fields of a packet header (spec/03 Table 03-2) other than `HCRC`, which the die recomputes (R97). -/
structure Hdr where
  dst : BitVec 11 := 0
  src : BitVec 11 := 0
  part : BitVec 4 := 0
  vc : BitVec 3 := 0
  type : BitVec 5 := 0
  epoch : Bool := false
  fence : Bool := false
  gap : Bool := false
  mark : Bool := false
  echo : Bool := false
  seq : BitVec 16 := 0
  group : BitVec 12 := 0
  pour : BitVec 20 := 0
  pos : BitVec 24 := 0
  seqId : BitVec 6 := 0
  circuit : BitVec 12 := 0
  len : BitVec 13 := 0
  tag : BitVec 16 := 0
  rstat : BitVec 8 := 0
deriving DecidableEq, Repr

/-- Where in a die a packet is held. -/
inductive Bin where
  /-- In the queue of its egress port. -/
  | queue
  /-- In a reorder context (R193). -/
  | reorder
  /-- Waiting for a granted slot of its circuit (R201). -/
  | circuit
  /-- A request that missed, waiting for a VC7 descriptor, with its `RSTAT` (R342). -/
  | missed (rstat : Byte)
  /-- Held at a DRAINED die until `part.resume` (R216). -/
  | drained
deriving DecidableEq, Repr

/-- A packet held in a die's packet buffer (R104). -/
structure Held where
  /-- The model's own number of the packet, rising in order of arrival. -/
  id : Nat
  inPort : Nat
  outPort : Nat
  hdr : Hdr
  data : List Byte
  bin : Bin
  /-- The segment that holds its descriptor, and its cells too unless `cells` names theirs. -/
  seg : Nat
  /-- Cells by segment, of a packet whose cells no single segment could hold (R239). -/
  cells : List (Nat × Nat) := []
  /-- The tick in which the die accepted its header (R83). -/
  tick : Tick
  /-- Place of a pour on this die whose output the packet is (R289); none for a packet that the die only forwards. -/
  place : Option (PourKey × Place) := none
deriving DecidableEq, Repr

/-- An event record (spec/13 Table 13-7, Table 13-8). -/
structure Event where
  op : BitVec 16
  tick : Tick
  die : Byte
  port : Byte
  part : Byte
  vc : Byte
  cause : Byte
  detail : List Byte
deriving DecidableEq, Repr

/-- A reach notice (spec/13 R481). `restored` is `STATE` 1. -/
structure Notice where
  plane : BitVec 2
  spine : BitVec 5
  leaf : BitVec 6
  restored : Bool
  decl : Tick
deriving DecidableEq, Repr

/-- A data block of a port's transmitter (spec/04 R128, R129): its 32 bytes, byte 0 first, and how many 4-byte words at its end are
fill, which a FILL word then names. -/
structure TxBlock where
  bytes : BitVec 256
  fill : BitVec 3
deriving DecidableEq, Repr

/-- One phase of an FPSM frame (spec/14 Table 14-2, R494 to R496). -/
structure FpsmPhase where
  /-- Lane count; 0 in a dummy phase. -/
  lanes : Nat
  /-- Rate D. -/
  ddr : Bool
  /-- The FPSM drives the phase's lanes; no phase drives the lanes above its count. -/
  drives : Bool
  /-- Length in clock cycles. -/
  cycles : Nat
  /-- What the FPSM drives in each transfer, IO0 in bit 0. -/
  xfers : List Byte
deriving DecidableEq, Repr

/-- What the FPSM does at its pins, in order (spec/14 Table 14-1). -/
inductive FpsmPin where
  /-- `CLK_DIV` of the frame that follows (R493). -/
  | clock (div : Nat)
  /-- `FPSM_FLASH_RST_N` (R505). -/
  | reset (low : Bool)
  /-- `FPSM_SEL_CODE` changes (R498, R499). -/
  | code (c : BitVec 3)
  /-- `FPSM_SEL_STB_N`. -/
  | strobe (low : Bool)
  /-- `FPSM_CS_BOOT_N`. -/
  | boot (low : Bool)
  /-- Clock cycles in which nothing else changes (R499, R500). -/
  | wait (cycles : Nat)
  | phase (p : FpsmPhase)
deriving DecidableEq, Repr

/-- One thing that leaves the tray. `State.out` lists what the last command sent. -/
inductive Out where
  /-- A response frame of KIND 2 (R394, R412). -/
  | resp (chan : Channel) (slot : Byte) (op : BitVec 16) (tag : BitVec 16) (status : Status) (epoch : BitVec 32)
      (payload : List Byte)
  /-- The copy of an earlier response that R397 sends again. -/
  | copy (chan : Channel) (slot : Byte) (op : BitVec 16) (tag : BitVec 16) (status : Status) (payload : List Byte)
  /-- A copy of an event frame on a management channel (R414, R415). -/
  | event (chan : Channel) (seq : BitVec 32) (ev : Event)
  /-- A copy of an event frame to an in-band subscriber (spec/11, Events). -/
  | inband (d : DieId) (p : Nat) (ev : Event)
  /-- A link control word. -/
  | word (d : DieId) (p : Nat) (w : CtlWord)
  /-- A mailbox packet delivered through port 70 to the FC4 of the tray (R33, R418); its port of arrival is `p`. -/
  | mailbox (d : DieId) (p : Nat) (h : Hdr) (data : List Byte)
  /-- A packet leaving a port: header with its `HCRC`, and payload. -/
  | packet (d : DieId) (p : Nat) (h : BitVec 256) (data : List Byte)
  /-- A data block leaves a port under its number (R134, R139); its FILL word follows where it has fill (R129). -/
  | block (d : DieId) (p : Nat) (seq : BitVec 16) (b : TxBlock)
  /-- A tick frame begins on a port: its codewords, and the pad that each lane carries after them (R125, R126). -/
  | tickFrame (d : DieId) (p : Nat) (codewords : Nat) (pad : List (BitVec 2))
  /-- A reach notice to every leaf tray of the plane (R422). -/
  | notice (d : DieId) (p : Nat) (n : Notice)
  /-- A relayed FMP request leaving an up port, or a relayed response on its way back (R420). -/
  | relay (d : DieId) (p : Nat) (op : BitVec 16) (tag : BitVec 16) (origin : BitVec 16) (status : BitVec 16)
      (payload : List Byte)
  /-- The datagram of the frame before it leaves an Ethernet port, in these fragments, each its offset and length (R391, R392). -/
  | datagram (eth1 : Bool) (dest : BitVec 144) (frags : List (Nat × Nat))
  /-- An ICMPv6 echo reply (R390). -/
  | icmp (eth1 : Bool) (dst : BitVec 128) (ident seqNo : BitVec 16) (data : List Byte)
  /-- A Neighbor Advertisement for the port's link-local address (R390). -/
  | neighbor (eth1 : Bool) (dst target : BitVec 128)
  /-- The reply segment of an MSP transaction (R521 to R525): the lanes it drives, and what they carry in each transfer (R516). -/
  | msp (b : Bool) (lanes : Nat) (xfers : List Byte)
  /-- The MSP slave drove no lane (R520). -/
  | mspSilent (b : Bool)
  /-- What the FPSM does at its pins (R493 to R505). -/
  | fpsm (pins : List FpsmPin)
deriving DecidableEq, Repr

/-! ### The tables of a die, which lookups see as they stood at the start of the tick (R84) -/

/-- Settings and state of one partition on one die. -/
structure Part where
  /-- 2 bits; 10 Table 10-2; reset CLOSED. -/
  state : PartState := .closed
  /-- `GEN`, 16 bits; 10 R353; reset 0 (DESIGN CHOICE). -/
  gen : BitVec 16 := 0
  /-- `MODE`, false STREAM, true LAYER; 01 R42, 19 Table 19-1; reset STREAM. -/
  layer : Bool := false
  /-- `FAIL_MODE`, false REMAP, true RESTART; 16 R559; reset REMAP. -/
  restart : Bool := false
  /-- Shares of VC0 to VC7 in 32nds, byte v for VC v; 01 R42, Table 01-8; reset the STREAM defaults. -/
  shares : BitVec 64 := 0x020201040A060601#64
  /-- `CIRC_CAP`, 0 to 16; 01 Table 01-8; reset 2. -/
  circCap : BitVec 8 := 2
  /-- `DEFAULT_LEASE`, 32 bits; 01 Table 01-8; reset 2,500. -/
  defLease : BitVec 32 := 2500
  /-- `DIR_BASE`; 09 R325; reset 0. -/
  dirBase : Nat := 0
  /-- `DIR_SIZE`; 09 R325; reset 0. -/
  dirSize : Nat := 0
  /-- Bit v: VC v quiesced; 05 R213; reset 0. -/
  quiesced : BitVec 8 := 0
  /-- Alias epoch, 32 bits; 16 R562; reset 0. -/
  aliasEpoch : BitVec 32 := 0
deriving DecidableEq, Repr

/-- Route table versions of one partition on one die (spec/05 Table 05-5, spec/12 Table 12-8). -/
structure Ver where
  /-- The selector, the ACTIVE version; 05 R96; reset 0. -/
  sel : Bool := false
  /-- State of version 0; 05 Table 05-5; reset ACTIVE. -/
  v0 : VerState := .active
  /-- State of version 1; 05 Table 05-5; reset RETIRED. -/
  v1 : VerState := .retired
  /-- `UPDATE_MODE`, true DRAIN; 05 R215; reset EPOCH. -/
  drain : Bool := false
  /-- `LINGER_TICKS`; 05 R210; reset 4,096. -/
  linger : BitVec 16 := 4096
  /-- Pending flip tick; 05 R209; reset none. -/
  flip : Option Tick := none
  /-- `LINGER_TICKS` at the acceptance of the pending flip; 12 R448; reset 4,096 (DESIGN CHOICE: of no meaning without a flip). -/
  flipLinger : BitVec 16 := 4096
  /-- Retire tick of the LINGER version; 05 R210; reset none. -/
  retire : Option Tick := none
deriving DecidableEq, Repr

/-- A group table entry (spec/07 Table 07-1, Table 07-2). -/
structure Group where
  /-- Control word, bits 127 to 0; reset 0. -/
  control : BitVec 128 := 0
  /-- `WEIGHTS`, 32 fp32 values; reset 0. -/
  weights : BitVec 1024 := 0
  /-- `BLOCK_HOME`, byte b for block b; reset 0. -/
  blockHome : BitVec 512 := 0
deriving DecidableEq, Repr

/-- A directory entry (spec/09 Table 09-2). -/
structure DirEntry where
  valid : Bool := false
  part : BitVec 4 := 0
  seqId : BitVec 6 := 0
  noAge : Bool := false
  block : BitVec 18 := 0
  owner : BitVec 11 := 0
  install : Tick := 0
  expiry : Tick := 0
deriving DecidableEq, Repr

/-- Congestion mode and thresholds of one (partition, VC) (spec/06 R241, R242). -/
structure Cong where
  /-- 0 NONE, 1 THROTTLE, 2 ECHO, 3 BOTH. -/
  mode : BitVec 2
  /-- `MARK_THRESH` in bytes per lane; reset 16 KiB. -/
  mark : BitVec 32 := 16384
  /-- `THROTTLE_THRESH` in bytes per lane; reset 32 KiB. -/
  throttle : BitVec 32 := 32768
deriving DecidableEq, Repr

/-- A packet buffer segment (spec/10 R360 to R367). -/
structure Seg where
  /-- The partition that holds it; reset none (free). -/
  owner : Option (BitVec 4) := none
  /-- (`PART`, `GEN`) that wrote it last; reset none. -/
  last : Option (BitVec 4 × BitVec 16) := none
  /-- It counts in the quota of R106; reset false. -/
  inQuota : Bool := false
  /-- Returned, and not yet empty (R361); reset false. -/
  returning : Bool := false
deriving DecidableEq, Repr

/-- The tables and settings of a die that change at tick boundaries (R84). -/
structure Tables where
  /-- Route entries of version 0 by `DST`, 2,048 x 64 bits; 05 R178; reset 0. -/
  route0 : Map (BitVec 64) := []
  /-- Route entries of version 1 by `DST`, 2,048 x 64 bits; 05 R178; reset 0. -/
  route1 : Map (BitVec 64) := []
  /-- REACH by leaf index, 64 x 32 bits; 05 R180, R666; reset all ones. -/
  reach : Map (BitVec 32) := []
  /-- Group table by `GROUP`, 4,096 x 256 B; 07 Table 07-1; reset 0. -/
  groups : Map Group := []
  /-- Circuit table by `CIRCUIT`, 4,096 x 64 bits; 05 R199; reset 0. -/
  circuits : Map (BitVec 64) := []
  /-- `LEASE_END` by `CIRCUIT`, 4,096 x 48 bits; 05 R199; reset 0. -/
  leases : Map Tick := []
  /-- Sequence descriptors by 64 x PART + SEQ_ID, 1,024 x 128 bits; 09 R323; reset 0. -/
  seqs : Map (BitVec 128) := []
  /-- Directory by index, 262,144 x 32 B; 09 R329; reset 0. -/
  dir : Map DirEntry := []
  /-- Valid `LOST_TICK` by endpoint, 2,048 x 48 bits; 09 R330; reset none valid. -/
  lost : Map Tick := []
  /-- Alias table by 2,048 x PART + rank, 16 bits; 16 R562; reset 0. -/
  ranks : Map (BitVec 16) := []
  /-- Partitions 0 to 15; 10 Table 10-1. -/
  parts : Map Part := []
  /-- Route table versions of partitions 0 to 15; 05 Table 05-5. -/
  vers : Map Ver := []
  /-- Partition of each assigned down port 0 to 31; 10 R357; reset none assigned. -/
  portPart : Map (BitVec 4) := []
  /-- Congestion settings by 8 x PART + VC; 06 Table 06-4; reset the defaults of Table 06-4 and Table 06-5. -/
  cong : Map Cong := []
  /-- Segments 0 to 46; 03 R105; reset free. -/
  segs : Map Seg := []
  /-- `COLL_OUT`, 32 bits; 07 R279; reset 0 (DESIGN CHOICE). -/
  collOut : BitVec 32 := 0
deriving DecidableEq, Repr

/-! ### Ports -/

/-- The last valid tick marker of a port (spec/02 Table 02-2). -/
structure MarkerInfo where
  count : Tick
  allowance : Byte
  period : BitVec 2
  holdover : Bool
  hop : BitVec 4
  epoch : Byte
  /-- Local tick in which it arrived. -/
  tick : Tick
  /-- Estimated offset from its sender, 1/16 ns. -/
  offset : Int
deriving DecidableEq, Repr

/-- A width or rate switch in progress (spec/04 R144). -/
structure Switch where
  lanes : BitVec 4
  /-- `NEW_RATE` 1: 106 Gb/s. -/
  slow : Bool
  reason : BitVec 3
  tick : Tick
  /-- A loss of lock started it (Table 04-6). -/
  byLoss : Bool
  /-- Tick of the loss of lock that started it, or in which it was requested (Table 04-6). -/
  start : Tick
deriving DecidableEq, Repr

/-- The near end of a margin sweep (spec/04 R170 to R172). -/
structure SweepNear where
  req : SweepReq
  /-- The lane under sweep. -/
  lane : BitVec 2
  /-- Index of the point under way. -/
  point : Nat
  /-- Tick of the last SWEEP word sent. -/
  lastSent : Tick
  /-- Tick in which the point's offset was set (R171). -/
  since : Tick
deriving DecidableEq, Repr

/-- The far end of a margin sweep (spec/04 R175). -/
structure SweepFar where
  /-- The last SWEEP word accepted. -/
  word : CtlWord
  /-- Tick in which it was accepted. -/
  last : Tick
  /-- Tick in which the offset of its point was set (R171). -/
  since : Tick
deriving DecidableEq, Repr

/-- XOFF sent on a port and what has arrived since (spec/06, Reservation and grant). -/
structure XoffSent where
  tick : Tick
  /-- Time from the boundary of that tick, 1/16 ns. -/
  at_ : Nat
  arrived : Nat
deriving DecidableEq, Repr

/-- The token bucket of a down port (spec/06 R253). -/
structure Bucket where
  /-- Level in units of 1/(16 x period in ns) byte; may be below zero. -/
  level : Int
  /-- Cap in bytes per tick. -/
  rate : Nat
  /-- Moment at which the level was counted: time from the boundary of this tick, 1/16 ns. -/
  at_ : Nat
deriving DecidableEq, Repr

/-- A packet sent on a port whose last block is not acknowledged (spec/04 R152). -/
structure TxPkt where
  first : BitVec 16
  last : BitVec 16
  part : BitVec 4
  dst : BitVec 11
deriving DecidableEq, Repr

/-- One port of a die. -/
structure Port where
  /-- 3 bits; 04 Table 04-4; reset DISABLED (lane group unpowered). -/
  state : LinkState := .disabled
  /-- Cause of HELD or DISABLED, 3 bits; 12 Table 12-6; reset 5 (not cabled) while unpowered. -/
  cause : BitVec 3 := 5
  /-- LEAVING mark of the lever of the port's caddy; 04 R163; reset 0. -/
  leaving : Bool := false
  /-- LEAVING mark of `link.config`: the state it gives the port once it has emptied; 12 R439; reset none. -/
  leaveTo : Option LinkState := none
  /-- Active lanes; 04 R146; reset 0. -/
  lanes : BitVec 4 := 0
  /-- Lanes declared lost; 04 R148; reset 0. -/
  lost : BitVec 4 := 0
  /-- 224 Gb/s; 04 R120; reset 0. -/
  fullRate : Bool := false
  /-- Own receive margins of lanes 0 to 3, 16 bits; 04 Table 04-3; reset 0 (DESIGN CHOICE). -/
  marginNear : BitVec 16 := 0
  /-- Far end's receive margins, 16 bits; 04 Table 04-3; reset 0 (DESIGN CHOICE). -/
  marginFar : BitVec 16 := 0
  /-- Lanes locked at this end's receiver: in TRAIN at 106 Gb/s, after it at 224 Gb/s; 04 R141, R143; reset 0. -/
  locked : BitVec 4 := 0
  /-- Polarity inversion of lanes 0 to 3 in bits 0 to 3 and lane-order reversal in bit 4, as this end corrects them; 04 R141, R160;
  reset 0 (DESIGN CHOICE). -/
  laneMap : BitVec 5 := 0
  /-- The delay of this training has been measured; 02 R63, 04 R133; reset 0. -/
  measured : Bool := false
  /-- Tick of the last DELAY_PROBE sent on this link; 04 R133; reset none. -/
  probed : Option Tick := none
  /-- One-way delay, 1/16 ns; 04 R133; reset 0 (DESIGN CHOICE). -/
  delay : BitVec 16 := 0
  /-- Far-end serial, 48 bits; 04 Table 04-5; reset 0 (DESIGN CHOICE). -/
  farSerial : BitVec 48 := 0
  /-- `FAR_ID`; 12 Table 12-6; reset 0 (DESIGN CHOICE). -/
  farId : BitVec 16 := 0
  /-- The far end is an endpoint; 12 Table 12-6; reset 0. -/
  farEp : Bool := false
  /-- Lanes the far end last reported locked (`LOCKED_LANES`), in TRAIN at 106 Gb/s, after it at 224 Gb/s; 04 R141, R143; reset 0. -/
  farLocked : BitVec 4 := 0
  /-- The checks of R142 failed with this cause; 04 R142; reset 0. -/
  badId : BitVec 3 := 0
  /-- Switch in progress; 04 R144; reset none. -/
  sw : Option Switch := none
  /-- Width before the last switch and the tick until which R233 keeps its skid; 06 R233; reset none. -/
  oldSkid : Option (Nat × Tick) := none
  /-- A `link.retrain` waits to be reported; 12 R443; reset 0. -/
  retrain : Bool := false
  /-- Idle lanes train for WIDEN; 04 R149; reset 0. -/
  widen : Bool := false
  /-- Ticks of the last failures; 04 R153; reset none. -/
  fails : List Tick := []
  /-- The ACTIVE bound of this training has passed; 04 R664; reset 0. -/
  boundOver : Bool := false
  /-- Background training of R143 goes on; 04 R143, R664; reset 0. -/
  training : Bool := false
  /-- The ACTIVE bound passed during a switch, at whose end the width of R664 is settled; 04 R664; reset 0. -/
  settle : Bool := false
  /-- Next data block to number; 04 R134; reset 0. -/
  txNext : BitVec 16 := 0
  /-- Oldest unacknowledged block; 04 R135; reset 0. -/
  txAck : BitVec 16 := 0
  /-- Retry buffer: the unacknowledged blocks from `txAck` on, at most 4,096; 04 R135; reset none. -/
  retry : List TxBlock := []
  /-- Blocks of started packets that have not been sent yet, in order; 04 R127, R135; reset none. -/
  wait : List TxBlock := []
  /-- Blocks at the end of the retry buffer that are to be sent again, oldest first; 04 R139; reset 0. -/
  resend : Nat := 0
  /-- Tick in which `ACK_SEQ` last advanced, the buffer ceased to be empty, or a timeout expired; 04 R139; reset 0 (DESIGN CHOICE). -/
  ackTick : Tick := 0
  /-- Packets with an unacknowledged block, oldest first; 04 R152; reset none. -/
  txPkts : List TxPkt := []
  /-- Next data block expected; 04 R136; reset 0. -/
  rxNext : BitVec 16 := 0
  /-- Blocks accepted since the last ACK; 04 R137; reset 0. -/
  rxUnacked : Nat := 0
  /-- Bytes of the packet byte stream that belong to the packet in progress; 04 R128; reset none. -/
  rxStream : List Byte := []
  /-- Block and tick of the last NAK sent; 04 R138; reset none. -/
  nakSent : Option (BitVec 16 × Tick) := none
  /-- NAKs sent for that block outside a switch; 04 Table 04-6, R151; reset 0. -/
  nakOut : Nat := 0
  /-- Block of the last NAK received; 04 Table 04-6; reset 0. -/
  nakSeq : BitVec 16 := 0
  /-- NAKs received for that block; 04 Table 04-6; reset 0. -/
  nakCount : Nat := 0
  /-- Consecutive 4 us timeouts; 04 Table 04-6; reset 0. -/
  timeouts : Nat := 0
  /-- Last valid tick marker; 02 R59; reset none. -/
  marker : Option MarkerInfo := none
  /-- Consecutive boundaries without a valid marker; 02 R67; reset 0. -/
  missing : Nat := 0
  /-- XON held for sending, bit 8 x PART + VC; 06 R229; reset 0. -/
  txXon : BitVec 128 := 0
  /-- XON held for sending VC0 of the pool; 06 R225; reset 0. -/
  txPool : Bool := false
  /-- WANT of the far end, bit 8 x PART + VC; 06 Table 06-2; reset 0. -/
  farWant : BitVec 128 := 0
  /-- WANT of the far end for the pool; 06 Table 06-2; reset 0. -/
  farWantPool : Bool := false
  /-- XON granted to the far end, bit 8 x PART + VC; 06 R225; reset 0. -/
  rxXon : BitVec 128 := 0
  /-- XON granted to the far end for the pool; 06 R225; reset 0. -/
  rxPool : Bool := false
  /-- XOFF sent and not yet run out, by 8 x PART + VC (128: pool); 06 R234; reset none. -/
  xoffs : Map XoffSent := []
  /-- Tick of the last packet or of the grant, by 8 x PART + VC; 06 R236; reset none. -/
  lastRx : Map Tick := []
  /-- Token buckets by 8 x PART + VC; 06 R253; reset none. -/
  buckets : Map Bucket := []
  /-- Partition served last, by VC; 03 R101; reset none. -/
  rrPart : Map Nat := []
  /-- Ingress port served last, by 8 x PART + VC; 03 At the edges; reset none. -/
  rrIn : Map Nat := []
  /-- Deficits of VC3, VC4, VC6, VC7 by VC, in bytes; 03 R101; reset 0. -/
  deficit : Map Nat := []
  /-- VC whose round is under way; 03 R101; reset 3. -/
  drrAt : Nat := 3
  /-- Data blocks sent in each of the last 4 ticks, by tick; 04 R127; reset none. -/
  sent : List (Tick × Nat) := []
  /-- End of the packet that leaves: a tick and the time from its boundary, 1/16 ns; 03 R101; reset none. -/
  busy : Option (Tick × Nat) := none
  /-- Egress port of the packet in progress on this port, when it goes cut-through; 03 R111, R115; reset none. -/
  through : Option Nat := none
  /-- Margin sweep run from this end; 04 R170; reset none. -/
  near : Option SweepNear := none
  /-- Margin sweep run from the far end; 04 R175; reset none. -/
  far : Option SweepFar := none
deriving DecidableEq, Repr

/-! ### A die -/

/-- The tick node of a die (spec/02). -/
structure TickNode where
  /-- 2 bits; 02 Table 02-3; reset UNLOCKED. -/
  state : TickState := .unlocked
  /-- Tick parent; 02 R59; reset none. -/
  parent : Option PortId := none
  /-- Parent to move to at the next boundary; 02 R59; reset none. -/
  nextParent : Option PortId := none
  /-- `HOP_COUNT` of its markers; 02 R59; reset 0. -/
  hop : BitVec 4 := 0
  /-- `MASTER_EPOCH` followed; 02 R59; reset 0. -/
  epoch : Byte := 0
  /-- Period code; 02 R48; reset 1 (400 ns). -/
  period : BitVec 2 := 1
  /-- Last `RAMP_ALLOWANCE` received; 02 R56, R58; reset 0. -/
  allowance : Byte := 0
  /-- `RAMP_ALLOWANCE` that applies in this tick; 02 R57; reset 0. -/
  applied : Byte := 0
  /-- Locked at some time since power-on; 02 R58; reset 0. -/
  everLocked : Bool := false
  /-- Consecutive ticks within the bound of 1.5 ns; 02 R66; reset 0. -/
  within : Nat := 0
  /-- `HOLDOVER_TICKS`; 02 R70; reset 0. -/
  holdTicks : BitVec 32 := 0
  /-- Tick of the last drop of a parent and the lineage dropped; 02 R68; reset none. -/
  drop : Option (Tick × Byte) := none
  /-- The hold of R578, from TICK_FAULT until LOCKED; 02 Table 02-3; reset 0. -/
  hold : Bool := false
  /-- `FAULT_CAUSE`; 12 Table 12-5; reset 0. -/
  faultCause : BitVec 8 := 0
  /-- Estimated offset from the parent, 1/16 ns; 02 R66; reset 0 (DESIGN CHOICE). -/
  offset : Int := 0
  /-- This die is the master die; 02 R76; reset 0. -/
  master : Bool := false
  /-- Whole consecutive ticks without a marker of `HOLDOVER` 0; 02 R73; reset 0. -/
  quiet : Nat := 0
  /-- A marker of `HOLDOVER` 0 has been heard in this tick; 02 R73; reset 0. -/
  loud : Bool := false
  /-- A marker of the present parent has been accepted; 02 R66; reset 0. -/
  accepted : Bool := false
deriving DecidableEq, Repr

/-- One zeroing job of an engine (spec/10 R364 to R366). -/
structure ZeroJob where
  /-- Segment or pot number. -/
  item : Nat
  /-- End of the zeroing on the die's own time scale, in ns from tick 0. -/
  endNs : Nat
deriving DecidableEq, Repr

/-- A pot of blend memory (spec/07 Pots). -/
structure Pot where
  /-- Group and place it is assigned to; reset none. -/
  owner : Option (BitVec 4 × BitVec 12 × Place) := none
  /-- (`PART`, `GEN`, `GROUP`) that owned it last (spec/10, Zeroing on change of owner); reset none. -/
  last : Option (BitVec 4 × BitVec 16 × BitVec 12) := none
  /-- Zeroing is queued or running; reset false. -/
  zeroing : Bool := false
  /-- Pour that holds it (R289); reset none. -/
  pour : Option PourKey := none
  /-- Tick in which a pour last freed it (R297); reset none. -/
  freed : Option Tick := none
deriving DecidableEq, Repr

/-- What a place holds of one input stream (spec/07 Table 07-4). -/
structure Input where
  /-- Position of the sender in the combine: rank position, block, tray set or slot. -/
  pos : Nat
  /-- Data by byte offset, one piece per packet, in order of offset. -/
  data : Map (List Byte) := []
  /-- A packet with `LAST` set, or the last packet of a run, has arrived. -/
  last : Bool := false
  /-- A packet of the stream was lost to a buffer error (R223): the input never completes. -/
  dead : Bool := false
  /-- `POUR_LEN` so far: bytes kept for a contribution. -/
  len : Nat := 0
  /-- Bytes dropped of a contribution (R268). -/
  dropped : Nat := 0
  /-- `OVF_RANKS` so far. -/
  ovfRanks : Nat := 0
  /-- `OVF_LOW`; meaningful when `ovfRanks` is not 0. -/
  ovfLow : Nat := 0
  numFlags : Byte := 0
  /-- `MARK` of some packet of the stream (R247). -/
  mark : Bool := false
  /-- Group rank of a contribution and the die port on which it entered. -/
  rank : Nat := 0
  inPort : Nat := 0
deriving DecidableEq, Repr

/-- An input packet of a pour that waits in the packet buffer (spec/07 R291, spec/03 R104). -/
structure Wait where
  /-- The model's own number of the packet. -/
  id : Nat
  seg : Nat
  cells : List (Nat × Nat)
  len : Nat
  /-- Position of its sender. -/
  pos : Nat
deriving DecidableEq, Repr

/-- A pour at one place of a die (spec/07 Levels, slices and paths). -/
structure Pour where
  key : PourKey
  part : BitVec 4
  place : Place
  /-- Slot of a level-3 place (Table 07-3); 0 elsewhere. -/
  slot : Nat := 0
  /-- Pot held (R289). -/
  pot : Option Nat := none
  /-- Tick of the first input there (R295). -/
  first : Tick
  inputs : Map Input := []
  /-- Input packets held in the packet buffer, for want of a pot or at a place without one (R291). -/
  waits : List Wait := []
  /-- The stage has started (R297). -/
  started : Bool := false
  /-- Tick in which the sending place started its stage, as far as the die can tell: that of the last input. -/
  lastIn : Tick
  /-- Counted in `grp.pot.stall` or `grp.pot.wait` already (R291). -/
  stalled : Bool := false
deriving DecidableEq, Repr

/-- The record of an aborted pour (spec/07 R271); `status` 0 records a pour that has ended without abort (R294). -/
structure AbortRec where
  key : PourKey
  status : BitVec 4
  tick : Tick
  /-- Tick at which the record ends. -/
  until_ : Tick
  /-- Group ranks whose completion word with the status has been sent (R293). -/
  told : List Nat := []
  /-- `MARK` of some packet of the pour (R247). -/
  mark : Bool := false
deriving DecidableEq, Repr

/-- A relayed pour's path (spec/07 R287). -/
structure RelayPath where
  key : PourKey
  down : Bool
  /-- Leaf index of the far die. -/
  far : Nat
  port : Nat
deriving DecidableEq, Repr

/-- A contribution that a leaf die relays to its home die (spec/07 Table 07-5, R268). -/
structure RelayUp where
  key : PourKey
  rank : Nat
  /-- Die port on which it enters. -/
  inPort : Nat
  kept : Nat := 0
  dropped : Nat := 0
  last : Bool := false
deriving DecidableEq, Repr

/-- A relayed result on its way to a member of this die (spec/07 Table 07-5). -/
structure RelayDown where
  key : PourKey
  rank : Nat
  data : List Byte
  /-- `MARK` of some packet of it (R247). -/
  mark : Bool := false
deriving DecidableEq, Repr

/-- A pinned flow at its ingress leaf die (spec/05 R184, R185). -/
structure Pin where
  port : Nat
  /-- The port it left at the previous re-pin. -/
  left : Option Nat := none
deriving DecidableEq, Repr

/-- A VC3 flow at its destination leaf die (spec/05 R191 to R198). -/
structure SprayFlow where
  /-- NEXT. -/
  next : BitVec 16 := 0
  /-- Loss-pending bit. -/
  loss : Bool := false
  /-- Tick in which the gap timer started; none when nothing is held. -/
  timer : Option Tick := none
deriving DecidableEq, Repr

/-- A flow of VC4 to VC7 at its destination leaf die (spec/05 R221). -/
structure OrderFlow where
  cur : Nat
  prev : Option Nat := none
  loss : Bool := false
deriving DecidableEq, Repr

/-- A pending re-map (spec/16 R568). -/
structure Remap where
  rank : BitVec 11
  spare : BitVec 11
  epoch : BitVec 32
  effect : Tick
deriving DecidableEq, Repr

/-- A diagnostic loop under way (spec/13 R485). -/
structure DiagLoop where
  count : Nat
  len : Nat
  /-- Packets that have not entered segment 47 yet. -/
  queued : Nat := 0
  sent : Nat := 0
  received : Nat := 0
  mismatched : Nat := 0
deriving DecidableEq, Repr

/-- A Q die. -/
structure Die where
  /-- Core power domain; 17 Table 17-2; reset off. -/
  core : CorePower := .off
  /-- Tick counter, 48 bits; 02 R49; reset 0. -/
  now : Tick := 0
  /-- MODEL'S OWN: time from the boundary to the last command that named one, 1/16 ns; reset 0 (DESIGN CHOICE). -/
  clock : Nat := 0
  /-- Tick node; 02 R59. -/
  tick : TickNode := {}
  /-- Service level, true for full service; 15 R552; reset pre-warm. -/
  full : Bool := false
  /-- A `diag.write` has written the die since its bring-up; 13 R484; reset 0. -/
  unbound : Bool := false
  /-- Tables and settings as they stood at the start of the tick; 02 R84. -/
  view : Tables := {}
  /-- Tables and settings as the writes of this tick have left them; 02 R84. -/
  tab : Tables := {}
  /-- Directory entries by index, and circuits by 262,144 + `CIRCUIT`, that a write of this tick has cleared; 02 R86; reset
  none. -/
  cleared : Map Bool := []
  /-- Ports whose link was ACTIVE or ACTIVE_PW and not marked as leaving at the start of the tick; 05 R181, R186; reset none. -/
  usable : BitVec 72 := 0
  /-- Ports 0 to 71; 03 Table 03-1. -/
  ports : Map Port := []
  /-- Packets held in the buffer, oldest first; 03 R104; reset none. -/
  held : List Held := []
  /-- The model's own number for the next packet; reset 0. -/
  nextId : Nat := 0
  /-- Spray counters by flow key; 05 R190; reset 0. -/
  spraySeq : Map (BitVec 16) := []
  /-- Pinned flows by flow key; 05 R184; reset none. -/
  pins : Map Pin := []
  /-- VC3 flows by flow key; 05 R191; reset none. -/
  sprayRx : Map SprayFlow := []
  /-- VC4 to VC7 flows by flow key; 05 R221; reset none. -/
  order : Map OrderFlow := []
  /-- Endpoints whose rank was re-mapped, by 2,048 x PART + endpoint: the loss of R567 on their flows; 16 R567; reset none. -/
  moved : Map Bool := []
  /-- Port last chosen, by 8 x PART + VC; 05 R183; reset none. -/
  lastPort : Map Nat := []
  /-- Segment zeroing engine, jobs in order; 10 R364; reset none. -/
  segJobs : List ZeroJob := []
  /-- Pot zeroing engine, jobs in order; 10 R364; reset none. -/
  potJobs : List ZeroJob := []
  /-- Pots 0 to 63; 07 Pots; reset unassigned. -/
  pots : Map Pot := []
  /-- Pours at the places of this die; 07 R274; reset none. -/
  pours : List Pour := []
  /-- Records of aborted pours; 07 R271; reset none. -/
  aborts : List AbortRec := []
  /-- Aborts that a home die has accepted in this tick: pour, status, `MARK`, and whether the die sends abort heads; 07 R294; reset none. -/
  abortDue : List (PourKey × BitVec 4 × Bool × Bool) := []
  /-- Last abort of each group; 13 Table 13-3; reset none. -/
  lastAbort : Map AbortRec := []
  /-- Paths of relayed pours; 07 R287; reset none. -/
  relays : List RelayPath := []
  /-- Contributions that this die relays; 07 Table 07-5; reset none. -/
  relayUps : List RelayUp := []
  /-- Relayed results received so far; 07 Table 07-5; reset none. -/
  relayDowns : List RelayDown := []
  /-- Changes of `COLL_OUT` not yet in effect: tick, bit, new value; 07 R281; reset none. -/
  collNext : List (Tick × Nat × Bool) := []
  /-- Tick in which the quiesce took effect or a packet was last held, by 8 x PART + VC; 05 R214; reset none. -/
  idleFrom : Map Tick := []
  /-- DRAINED, by 8 x PART + VC; 05 R214; reset none. -/
  drained : Map Bool := []
  /-- Port after which the next XON pass begins, by 8 x PART + VC (128: pool); 06 R235; reset none. -/
  xonNext : Map Nat := []
  /-- Shortfalls of R238 already raised, by 128 x PORT + 8 x PART + VC; 06 R238; reset none. -/
  quotaShort : Map Bool := []
  /-- Queues with throttle engaged, by 128 x PORT + 8 x PART + VC, true when the backstop engaged it; 06 R251; reset none. -/
  throttled : Map Bool := []
  /-- Queues that marked (1) or were throttled (2, 3 both) in this window; 06 R255; reset none. -/
  window : Map Nat := []
  /-- The window that has ended and waits to be judged; 06 R255; reset none. -/
  ended : Option (Map Nat) := none
  /-- Consecutive such windows and whether throttle was engaged in one, by queue; 06 R255; reset none. -/
  runs : Map (Nat × Bool) := []
  /-- Circuits already reported short; 05 R206; reset none. -/
  short : Map Bool := []
  /-- Tick up to which a slot of a port is taken by an overrun: port to (tick, last slot); 05 R206; reset none. -/
  overrun : Map (Tick × Nat) := []
  /-- Counters by the low 26 bits of their ID with the unit removed, 64 bits; 18 R614; reset 0. -/
  ctr : Map (BitVec 64) := []
  /-- Counters as they stood at the start of the tick; 18 R618; reset 0. -/
  ctrView : Map (BitVec 64) := []
  /-- Partitions a fault has touched since the last boundary; 16 R560; reset 0. -/
  touched : BitVec 16 := 0
  /-- Fence boundary of a FENCED partition; 16 R570; reset none. -/
  fencedAt : Map Tick := []
  /-- Pending re-map by partition; 16 R568; reset none. -/
  remaps : Map Remap := []
  /-- Packets discarded by `DST`, counted afresh from the failure of that endpoint's port; 16 R569; reset 0. -/
  lostTo : Map (BitVec 32) := []
  /-- Best claim word forwarded, by `CLAIM_EPOCH`; 02 R75; reset none. -/
  bestClaim : Map CtlWord := []
  /-- Lane groups powered, bit g; 03 R88; reset 0. -/
  laneGroups : BitVec 18 := 0
  /-- Lane groups shed at grade 2, oldest first; 17 R607; reset none. -/
  shed : List Nat := []
  /-- Diagnostic loop; 13 R485; reset none. -/
  loop : Option DiagLoop := none
deriving DecidableEq, Repr

/-! ### The FC4 -/

/-- A tray identity record (spec/15, Table 15-2). -/
structure IdRec where
  index : Nat
  /-- true: SPINE. -/
  spine : Bool
  rack : BitVec 8
  slot : BitVec 8
deriving DecidableEq, Repr

/-- Bring-up state of the FC4 (spec/15). -/
structure Boot where
  /-- `STAGE`; 15 Table 15-1; reset ALWAYS_ON. -/
  stage : Stage := .alwaysOn
  /-- `STAGE_TICK`; 12 Table 12-4; reset 0. -/
  stageTick : Tick := 0
  /-- Bits 2 and 3 of `FULL_COND`; 12 R436; reset 0. -/
  ready : Bool := false
  /-- The work of FUSE_CHECK is still to do; 15 R542; reset 0. -/
  checkDue : Bool := false
  /-- `RESET_CAUSE`; 12 Table 12-4; reset 0 (power-on). -/
  resetCause : BitVec 8 := 0
  /-- `BOOT_TICK`; 12 Table 12-2; reset 0. -/
  bootTick : Tick := 0
  /-- Identity in force; 10 R380; reset none. -/
  ident : Option IdRec := none
  /-- Identity records of flash by index; 15 Table 15-2; reset none (DESIGN CHOICE). -/
  records : Map IdRec := []
  /-- `CABLED` of Q0 to Q3; 15 R538; reset all ones. -/
  cabled : Map (BitVec 64) := []
  /-- Neither bank passes and the ROM serves MSP; 15 R541; reset 0. -/
  romOnly : Bool := false
  /-- Identify indicator flashing blue; 12 R435; reset off. -/
  identify : Bool := false
  /-- Setting of the identify indicator from the next tick; 12 R435; reset none. -/
  identifyNext : Option (Tick × Bool) := none
  /-- Input switch closed; 20 R647; reset open. -/
  inputOn : Bool := false
  /-- Core and fault code that the always-on block recorded; 16 R576; reset none. -/
  faultCode : Option (Fin 4 × BitVec 32) := none
  /-- An FC4 reset is due (watchdog, command or firmware), with its cause; 16 R575, 13 R491; reset none. -/
  resetDue : Option (BitVec 8) := none
  /-- Always-on tick counter, 48 bits; 02 R49; reset 0. -/
  now : Tick := 0
deriving DecidableEq, Repr

/-- An undecided token claim (spec/11 R408). -/
structure Claim where
  f : Frame
  key : Nat
  epoch : BitVec 32
  tick : Tick
deriving DecidableEq, Repr

/-- Manager keys and the manager token (spec/11). -/
structure Token where
  /-- Key slot of the holder; 11 R405; reset free. -/
  holder : Option (Fin 4) := none
  /-- Token epoch, 32 bits; 11 R388; reset 0. -/
  epoch : BitVec 32 := 0
  /-- Lapse tick; 11 R405; reset 0 (DESIGN CHOICE). -/
  lapse : Tick := 0
  /-- Tick of the holder's last beat; 11 R405; reset 0 (DESIGN CHOICE). -/
  lastBeat : Tick := 0
  /-- Claims of the current tick; 11 R408; reset none. -/
  claims : List Claim := []
  /-- Tick from which a release frees the token; 11 R410; reset none. -/
  release : Option Tick := none
  /-- Cached public keys by slot; 11 R403; reset none. -/
  keys : Map PubKey := []
  /-- Last accepted `CMD_SEQ` by slot; 11 R401; reset none. -/
  seqs : Map (BitVec 32) := []
  /-- Valid nonces by channel; 11 R402; reset none. -/
  nonces : Map (BitVec 128) := []
  /-- Stored public keys of flash by slot; 15 R538; reset none (DESIGN CHOICE). -/
  store : Map PubKey := []
deriving DecidableEq, Repr

/-- A VC0 packet of the FC4 on its way to port 70 of a die (spec/11 R418). -/
structure Mail where
  d : DieId
  /-- The egress port that the FC4 names. -/
  port : Nat
  /-- `TYPE`: 1 MBX_REQ, 2 MBX_RSP, 3 MBX_EVT. -/
  type : BitVec 5
  /-- `TAG` of the request that it answers or repeats; none for an event or a notice. -/
  tag : Option (BitVec 16)
  /-- The FMP frame. -/
  bytes : List Byte
deriving DecidableEq, Repr

/-- A response copy of a slot (spec/11 R397). -/
structure RespCopy where
  op : BitVec 16
  tag : BitVec 16
  cmdSeq : BitVec 32
  part : Byte
  epoch : BitVec 32
  status : Status
  payload : List Byte
deriving DecidableEq, Repr

/-- An in-band request that holds a slot (spec/11 R419). -/
structure SlotReq where
  op : BitVec 16
  tag : BitVec 16
  /-- Die port of arrival. -/
  port : Nat
  origin : BitVec 16
deriving DecidableEq, Repr

/-- The mailbox of the FC4 (spec/11). -/
structure Mailbox where
  /-- Slots that hold a request not yet answered, by 16 x channel + slot; 11 R394; reset none. -/
  slots : Map SlotReq := []
  /-- Last responses by 16 x channel + slot; 11 R397; reset none. -/
  copies : Map RespCopy := []
  /-- Source of the last signed command by Ethernet port; 11 R392; reset none. -/
  peers : Map (BitVec 144) := []
  /-- Relayed requests by `TAG`: die, port of arrival, origin; 11 R420; reset none. -/
  relayed : Map (DieId × Nat × BitVec 16) := []
  /-- VC0 packets of the FC4 that wait to enter a die at port 70, oldest first; 11 R418, 03 R107; reset none. -/
  outbox : List Mail := []
  /-- Echoes that the FC4 owes, by 72 x die + port of arrival: the last tick in which they may leave; 06 R246; reset none. -/
  echoes : Map Tick := []
  /-- FC4 counters by ID, 64 bits; 18 R614; reset 0. -/
  ctr : Map (BitVec 64) := []
  /-- FC4 counters at the start of the tick; 18 R618; reset 0. -/
  ctrView : Map (BitVec 64) := []
deriving DecidableEq, Repr

/-- A queued event (spec/11 R415). -/
structure EvRec where
  seq : BitVec 32
  ev : Event
  /-- READ_EVENT has returned it (spec/14 R531). -/
  returned : Bool := false
  /-- Tick in which it was last sent (R416). -/
  sent : Tick := 0
deriving DecidableEq, Repr

/-- An in-band subscriber (spec/11, Events). -/
structure Sub where
  d : DieId
  port : Nat
  ep : BitVec 11
deriving DecidableEq, Repr

/-- The event queues (spec/11 R415 to R417). -/
structure Events where
  /-- Queue of channel 0 to 3, oldest first, at most 256; 11 R415; reset empty. -/
  queues : Map (List EvRec) := []
  /-- Next event sequence of channel 0 to 3; 11 R415; reset 0. -/
  next : Map (BitVec 32) := []
  /-- Events discarded from a full queue and not yet reported, by channel; 11 R417; reset 0. -/
  lost : Map (BitVec 32) := []
  /-- Subscribers of each partition, at most 4; 11 Events; reset none. -/
  subs : Map (List Sub) := []
deriving DecidableEq, Repr

/-- One use of a fuse operation (spec/10 R371). -/
structure FuseUse where
  /-- `SETTING` of Table 10-8. -/
  setting : BitVec 8
  /-- Lowest fuse bit of the use. -/
  bit : Nat
  /-- Bits to program. -/
  mask : BitVec 4096
  detail : List Byte
deriving DecidableEq, Repr

/-- A fuse operation under way: the use that runs and those that follow (spec/10 R371). -/
structure FuseOp where
  uses : List FuseUse
  cred : Byte
  epoch : Byte
  /-- Identity record to write when the identity step is done (R380). -/
  ident : Option IdRec := none
deriving DecidableEq, Repr

/-- A record of the audit log (spec/10 Table 10-8). -/
structure AuditRec where
  seq : BitVec 32
  tick : Tick
  /-- 1 INTENT, 2 COMPLETE, 3 CANCELLED. -/
  kind : BitVec 8
  setting : BitVec 8
  bit : BitVec 16
  cred : Byte
  epoch : Byte
  detail : List Byte
  chain : BitVec 128
  /-- `RCRC` as stored. -/
  crc : BitVec 32
deriving DecidableEq, Repr

/-- The fuse array and the audit log (spec/10). -/
structure Fuses where
  /-- Fuse array, 4,096 bits; 10 R369, Table 10-4; reset the factory values, `TRAY_SERIAL` 0 (DESIGN CHOICE). -/
  bits : BitVec 4096 := (1#4096 <<< 1776) ||| (0x0F#4096 <<< 1784) ||| (0x10#4096 <<< 1800)
  /-- Operation under way; 10 R371; reset none. -/
  op : Option FuseOp := none
  /-- Audit log, at most 512 records, oldest first; 10 R383; reset empty (DESIGN CHOICE). -/
  log : List AuditRec := []
  /-- Pending record of a key program: slot, hash, and whether its CRC holds; 15 Table 15-2; reset none (DESIGN CHOICE). -/
  pending : Option (Fin 4 × BitVec 384 × Bool) := none
deriving DecidableEq, Repr

/-- An image bank of the boot flash (spec/13 Table 13-6, spec/15 Table 15-2). -/
structure Bank where
  /-- Bytes from offset 0 that differ from the erased value 0xFF; reset erased (DESIGN CHOICE). -/
  mem : List Host.Cell := []
deriving DecidableEq, Repr

/-- The part of an FPSM frame that is under way (spec/14 R508). -/
inductive FpsmJob where
  /-- A read frame of the boot flash receives line `l`; `more` lines are to follow. -/
  | line (l more : Nat)
  /-- A caddy frame. -/
  | caddy
  /-- HOLD and IDLE after a read frame. -/
  | closing
deriving DecidableEq, Repr

/-- A caddy frame: bay, address and bytes (spec/14 R514). -/
structure CaddyFrame where
  bay : BayId
  addr : BitVec 16
  len : Nat
deriving DecidableEq, Repr

/-- The work of the FPSM (spec/14 R498, R507 to R512). -/
structure Fpsm where
  /-- `FPSM_SEL_CODE`, 3 bits; 14 R498; reset 0 (DESIGN CHOICE). -/
  code : BitVec 3 := 0
  /-- The frame under way; 14 R508; reset none. -/
  job : Option FpsmJob := none
  /-- Time to the end of that part, in 1/133 ns; 14 R493, R500; reset 0. -/
  left : Nat := 0
  /-- Misses that wait for the lines, oldest first: core and flash line; 14 R512; reset none. -/
  want : List (Fin 4 × Nat) := []
  /-- Caddy frames that wait, oldest first; 14 R512; reset none. -/
  caddies : List CaddyFrame := []
  /-- Prefetch continuations that wait, oldest first: flash line and lines; 14 R508, R512; reset none. -/
  ahead : List (Nat × Nat) := []
deriving DecidableEq, Repr

/-- Firmware banks and the FPSM (spec/13 Firmware, spec/14, spec/15). -/
structure Firmware where
  /-- Image bank 0; 15 Table 15-2. -/
  bank0 : Bank := {}
  /-- Image bank 1; 15 Table 15-2. -/
  bank1 : Bank := {}
  /-- `BOOT_BANK`; 15 R539; reset 0. -/
  bootBank : Bool := false
  /-- `ARMED_BANK`; 15 R539; reset none. -/
  armed : Option Bool := none
  /-- Bank of the running image; 13 Firmware; reset 0. -/
  runBank : Bool := false
  /-- Version of the running image: major, minor, security; 13 `fw.status`; reset 3, 0, 0 (DESIGN CHOICE). -/
  runMajor : Byte := 3
  runMinor : BitVec 16 := 0
  runSecurity : BitVec 16 := 0
  /-- `STAGED_STATE`, 0 to 5; 13 `fw.status`; reset 0. -/
  staged : BitVec 8 := 0
  /-- `BYTES_WRITTEN`; 13 `fw.status`; reset 0. -/
  bytes : BitVec 32 := 0
  /-- Boot descriptor bytes at flash offset 0, 32 B; 14 Table 14-4; reset erased (DESIGN CHOICE). -/
  desc : List Byte := []
  /-- The descriptor is applied; 14 R506; reset 0. -/
  descOk : Bool := false
  /-- XIP mode entered; 14 R509; reset 0. -/
  xip : Bool := false
  /-- Prefetch lines by flash line address, least recently used first, at most 64; 14 R507; reset none. -/
  lines : List Nat := []
  /-- A program or erase runs; 14 R511; reset 0. -/
  flashBusy : Bool := false
  /-- Misses held until the flash is ready, oldest first; 14 R511; reset none. -/
  misses : List (Fin 4 × Nat) := []
  /-- The FPSM's frame under way and its waiting work; 14 R512. -/
  fpsm : Fpsm := {}
deriving DecidableEq, Repr

/-- A reply of an MSP instance (spec/14 Table 14-8). -/
structure MspReply where
  rop : Byte
  rslot : Byte
  rcode : Byte
  rstate : Byte
  total : Nat
  data : List Byte
deriving DecidableEq, Repr

/-- An MSP instance (spec/14). -/
structure Msp where
  /-- 2, 4 or 8; 14 R517; reset 2. -/
  lanes : BitVec 8 := 2
  /-- Not-ready mode, true REPEAT-UNDERRUN; 14 R517; reset A false, B true. -/
  repeat_ : Bool := false
  /-- Pending reply; 14 R527; reset RESET. -/
  reply : MspReply := { rop := 0xFF, rslot := 0, rcode := 8, rstate := 0, total := 0, data := [] }
  /-- The pending reply is in the output buffer; 14 R524; reset true. -/
  ready : Bool := true
  /-- Slot states by slot; 14 Table 14-8; reset EMPTY. -/
  slots : Map SlotState := []
  /-- Request buffers by 4,096 x slot + offset; 14 R529; reset 0 (DESIGN CHOICE). -/
  buf : List Host.Cell := []
  /-- DONE slots whose response READ_RESP has returned from offset 0; 14 R531; reset none. -/
  taken : Map Bool := []
deriving DecidableEq, Repr

/-! ### Power, cooling, caddies -/

/-- One queued step of a domain change (spec/17 R595). -/
structure PwrStep where
  /-- Domain 0 to 132. -/
  dom : Nat
  on : Bool
  /-- Step of the domain in half watts. -/
  halfW : Nat
  /-- Last step of its domain. -/
  last : Bool := true
deriving DecidableEq, Repr

/-- Settings of `pwr.ramp` (spec/17 R592). -/
structure Ramp where
  rackLimit : BitVec 32 := 2000
  trayShare : BitVec 16 := 25
  paceShare : BitVec 16 := 0
deriving DecidableEq, Repr

/-- A sensor's count of consecutive samples at each level (spec/17 R604). -/
structure Cond where
  throttle : Nat := 0
  shed : Nat := 0
  shutdown : Nat := 0
deriving DecidableEq, Repr

/-- Power and cooling (spec/17). -/
structure Power where
  /-- Power state T0 to T3; 17 Table 17-2; reset T3: only the always-on block is powered (DESIGN CHOICE). -/
  state : BitVec 2 := 3
  /-- State being entered and its cause (0 command, 1 thermal, 2 leak, 3 input); 17 Table 17-3; reset none. -/
  target : Option (BitVec 2 × BitVec 8) := none
  /-- Enabled switched domains, bit k; 17 R580; reset 0. -/
  domains : BitVec 133 := 0
  /-- Queued steps; 17 R595; reset none. -/
  steps : List PwrStep := []
  /-- Ramp credit C in microwatts; 17 R594; reset at its cap of 90 W. -/
  credit : Nat := 90000000
  /-- Settings in force; 17 R593; reset 2,000, 25, 0. -/
  ramp : Ramp := {}
  /-- Settings from the next boundary; 13 R478; reset none. -/
  rampNext : Option Ramp := none
  /-- Allowance derived at the start of the previous tick; 17 R598; reset 28. -/
  allowPrev : Byte := 28
  /-- `GRADE`, 0 to 3; 13 Table 13-4; reset 0. -/
  grade : BitVec 8 := 0
  /-- Consecutive samples of each sensor; 17 R604; reset 0. -/
  conds : Map Cond := []
  /-- Latest sample; 17 R604; reset the nominal readings of 17 Table 17-4a (DESIGN CHOICE). -/
  last : Sensors := { inlet := 300, outlet := 300, flow := 600, vin := 5400, pin := 0, qj0 := 300, qj1 := 300,
                      qj2 := 300, qj3 := 300, fj := 300, rail := 300, leak := 0 }
  /-- `SAMPLE_TICK`; 13 Table 13-4; reset 0. -/
  sampleTick : Tick := 0
  /-- Consecutive samples at the clear level; 17 R604; reset 0. -/
  clear : Nat := 0
  /-- Steps of the data cap in force, 0 to 8; 17 R606; reset 0. -/
  cap : Nat := 0
  /-- Steps of the data cap of one bay, 0 to 8; 17 R610; reset 0. -/
  bayCap : Map Nat := []
  /-- Shutdown pending, and its cause; 17 R608; reset none. -/
  shutdown : Option (BitVec 8) := none
  /-- Tick before which a timed act waits: the next lane group that Q0 to Q3 shed at 0 to 3, the next one that returns at 4, the next
  step of the data caps at 5, the end of a shutdown's second at 6, the next sample at 7; 17 R604, R606 to R609; reset none. -/
  timers : Map Tick := []
deriving DecidableEq, Repr

/-- A caddy bay (spec/04 Cable caddies). -/
structure Bay where
  /-- `CADDY_STATE`; 12 Table 12-3; reset EMPTY. -/
  state : CaddyState := .empty
  /-- `REFUSE_CAUSE`; 12 Table 12-3; reset 0. -/
  cause : BitVec 8 := 0
  /-- `TEMP`, signed, 0.1 degrees; 12 Table 12-3; reset 0 (DESIGN CHOICE). -/
  temp : BitVec 16 := 0
  /-- EEPROM bytes read, 2,048 B; 04 R159; reset none. -/
  eeprom : List Byte := []
  /-- Ejector lever open; 04 R163; reset closed. -/
  lever : Bool := false
  /-- The caddy has passed steps 2 and 3 of its insertion; 04 R161, R162; reset 0. -/
  taken : Bool := false
  /-- Domain B reported good; 14 Table 14-5; reset 0. -/
  domB : Bool := false
  /-- Consecutive samples at `TEMP_WARN` and at `TEMP_CRIT`; 17 R604; reset 0. -/
  warm : Nat := 0
  hot : Nat := 0
  /-- Consecutive samples at least 5 degrees below `TEMP_WARN`; 17 R604; reset 0. -/
  cool : Nat := 0
deriving DecidableEq, Repr

/-! ### Notices, elections, sweeps, trace -/

/-- Tick mastership of the tray (spec/02, Electing the tick master). -/
structure Elect where
  /-- Tick priority; 02 R71; reset 0 (DESIGN CHOICE). -/
  priority : BitVec 8 := 0
  /-- Stored period code; 12 R438; reset 1 (400 ns). -/
  period : BitVec 2 := 1
  /-- Claim sent and not withdrawn: its epoch and tick; 02 R73; reset none. -/
  claim : Option (Byte × Tick) := none
  /-- The tray has withdrawn from the election of this epoch; 02 R76; reset none. -/
  withdrawn : Option Byte := none
  /-- Highest `MASTER_EPOCH` heard since power-on; 02 R73; reset none. -/
  heard : Option Byte := none
deriving DecidableEq, Repr

/-- Reach notices (spec/05 R188, spec/11 R422). -/
structure Notices where
  /-- Declaration tick of the last notice applied, by 64 x s + L; 05 R188; reset none. -/
  applied : Map Tick := []
  /-- Links of spine dies that notices report lost, by 64 x s + L; 07 R281; reset none. -/
  lost : Map Bool := []
  /-- Links of this spine tray whose change waits to be sent, by 64 x s + L; 05 R187; reset none. -/
  due : Map (Bool × Tick) := []
  /-- Notices sent once, with the tick of sending; 11 R422; reset none. -/
  sent : List (Notice × Tick) := []
  /-- Lost links of this spine tray with their declaration ticks; 16 R576; reset none. -/
  down : Map Tick := []
deriving DecidableEq, Repr

/-- A kept margin sweep (spec/12 R446). -/
structure SweepRec where
  req : SweepReq
  /-- Counts by 4,096 x lane + point; 04 R173; reset none. -/
  counts : Map (BitVec 16) := []
  /-- 0 COMPLETE, 1 INCOMPLETE, 2 ABORTED_REQUEST. -/
  result : BitVec 8 := 0
  done : Nat := 0
  running : Bool := true
deriving DecidableEq, Repr

/-- Trace state of one FC4 core (spec/18). -/
structure TraceCore where
  /-- Power condition; 18 R628; reset OFF. -/
  cond : CoreCond := .off
  /-- `TR_SEQ` of the next record; 18 R625; reset 0. -/
  seq : BitVec 32 := 0
  /-- Records staged in the FIFO, oldest first, at most 2 KiB; 18 R626; reset none. -/
  fifo : List (List Byte) := []
  /-- Records discarded since the last LOST record and the first of them; 18 R626; reset none. -/
  lost : Option (Nat × BitVec 32) := none
  /-- `LOST_SLEEP`; 18 R630; reset 0. -/
  lostSleep : BitVec 32 := 0
  /-- Tick of the last SLEEP record; 18 R631; reset 0. -/
  sleepTick : Tick := 0
  /-- `SLEEP_MISSING`; 18 R631; reset 1: no SLEEP record was ever written. -/
  sleepMissing : Bool := true
  /-- Tick of the core's last record, the work by which the model tells an idle core; 18 R628; reset 0 (DESIGN CHOICE). -/
  worked : Tick := 0
deriving DecidableEq, Repr

/-- The trace buffer (spec/18). -/
structure Trace where
  /-- Trace buffer, 1 MiB, bytes other than 0; 18 R622; reset 0 (DESIGN CHOICE). -/
  mem : List Host.Cell := []
  /-- `WRITE_OFFSET`; 18 R622; reset 0. -/
  woff : Nat := 0
  /-- `WRAPS`; 18 R622; reset 0. -/
  wraps : BitVec 32 := 0
  /-- `LOST`; 18 R622; reset 0. -/
  lost : BitVec 32 := 0
  /-- Cores MC0 to MC3; 18 R628. -/
  cores : Map TraceCore := []
  /-- A SYNC is due because the always-on counter stepped; 18 R627; reset 0. -/
  syncDue : Bool := false
deriving DecidableEq, Repr

/-! ### The tray -/

/-- The state of the tray. -/
structure State where
  /-- Die Q0. -/
  q0 : Die := {}
  /-- Die Q1. -/
  q1 : Die := {}
  /-- Die Q2. -/
  q2 : Die := {}
  /-- Die Q3. -/
  q3 : Die := {}
  /-- Bring-up, identity and the always-on block. -/
  boot : Boot := {}
  /-- Manager keys and token. -/
  tok : Token := {}
  /-- Mailbox slots and FC4 counters. -/
  mbx : Mailbox := {}
  /-- Event queues. -/
  evs : Events := {}
  /-- Fuse array and audit log. -/
  fuse : Fuses := {}
  /-- Firmware banks and FPSM. -/
  fw : Firmware := {}
  /-- MSP-A; 14 R517. -/
  mspA : Msp := {}
  /-- MSP-B; 14 R517. -/
  mspB : Msp := { repeat_ := true }
  /-- Power and cooling. -/
  pow : Power := {}
  /-- Caddy bays C0 to C7. -/
  bays : Map Bay := []
  /-- Tick mastership. -/
  elect : Elect := {}
  /-- Reach notices. -/
  notes : Notices := {}
  /-- Margin sweeps kept, newest first, at most 4; 12 R446; reset none. -/
  sweeps : List SweepRec := []
  /-- Trace buffer. -/
  trace : Trace := {}
  /-- MODEL'S OWN: what the last command sent out of the tray; reset nothing (DESIGN CHOICE). -/
  out : List Out := []
  /-- MODEL'S OWN: index of the next free value; reset 0 (DESIGN CHOICE). -/
  free : Nat := 0
  /-- The commands that are waiting, first in, first out; reset none. -/
  pending : List Instr := []
deriving DecidableEq, Repr

/-- The tray right after power-on of the always-on block, before the input switch has closed (spec/00 R10, Reset column;
spec/15 Table 15-1; spec/20 R647). -/
def State.reset : State := {}

end Sys2Proof.Machine
end

