-- ==== Sys2Proof/Machine/Map.lean ====
section
/-! DEFINITION. Reading and writing sparse tables (`Map`) and byte memories (lists of `Host.Cell`) in canonical form. -/

namespace Sys2Proof.Machine

/-- The entry of key `k`, if the table lists one. -/
def Map.look {α : Type} : Map α → Nat → Option α
  | [], _ => none
  | (j, a) :: r, k => if j = k then some a else Map.look r k

/-- The value of key `k`, or the default `d`. -/
def Map.lookD {α : Type} (m : Map α) (k : Nat) (d : α) : α := (Map.look m k).getD d

/-- Set the entry of key `k`. -/
def Map.put {α : Type} : Map α → Nat → α → Map α
  | [], k, a => [(k, a)]
  | (j, b) :: r, k, a =>
    if k < j then (k, a) :: (j, b) :: r
    else if k = j then (k, a) :: r
    else (j, b) :: Map.put r k a

/-- Remove the entry of key `k`. -/
def Map.rem {α : Type} : Map α → Nat → Map α
  | [], _ => []
  | (j, b) :: r, k => if j = k then r else (j, b) :: Map.rem r k

/-- Change the value of key `k`, from the default `d` when it is not listed. -/
def Map.upd {α : Type} (m : Map α) (k : Nat) (d : α) (f : α → α) : Map α := Map.put m k (f (Map.lookD m k d))

/-- Keep the entries whose key and value pass `p`. -/
def Map.keep {α : Type} (m : Map α) (p : Nat → α → Bool) : Map α := List.filter (fun e => p e.1 e.2) m

/-- Change every listed value. -/
def Map.mapVal {α β : Type} (m : Map α) (f : Nat → α → β) : Map β := List.map (fun e => (e.1, f e.1 e.2)) m

/-- The keys rise strictly. -/
def Map.wf {α : Type} : Map α → Bool
  | [] => true
  | [_] => true
  | (j, _) :: (k, b) :: r => decide (j < k) && Map.wf ((k, b) :: r)

/-- Read one byte; `d` is what an unlisted address reads as. -/
def Mem.read (d : Byte) (m : List Host.Cell) (a : Nat) : Byte := Map.lookD m a d

/-- Write one byte, keeping no entry equal to what an unlisted address reads as. -/
def Mem.write (d : Byte) (m : List Host.Cell) (a : Nat) (b : Byte) : List Host.Cell :=
  if b = d then Map.rem m a else Map.put m a b

/-- Write bytes at rising addresses from `a`. -/
def Mem.writes (d : Byte) : List Host.Cell → Nat → List Byte → List Host.Cell
  | m, _, [] => m
  | m, a, b :: bs => Mem.writes d (Mem.write d m a b) (a + 1) bs

/-- Read `n` bytes from address `a`. -/
def Mem.reads (d : Byte) (m : List Host.Cell) (a n : Nat) : List Byte :=
  (List.range n).map fun i => Mem.read d m (a + i)

/-- The canonical form: addresses strictly rising, and no entry equal to what an unlisted address reads as. -/
def Mem.wf (d : Byte) (m : List Host.Cell) : Bool := Map.wf m && m.all fun e => decide (e.2 ≠ d)

end Sys2Proof.Machine
end

