-- ==== Sys2Proof/Machine/Ops.lean ====
section
/-! DEFINITION. The operations that the commands share: the dies and the tray's identity, counters, events, trace records, the
response to a request, and the acts on one die of a command with a die mask. -/

namespace Sys2Proof.Machine

/-- What every meaning answers: the next state. -/
abbrev done (s : State) : Host.Outcome State Fault Refusal := .next s

/-! ### Dies -/

/-- Die `d` of the tray. -/
def State.die (s : State) (d : DieId) : Die :=
  match d with
  | 0 => s.q0
  | 1 => s.q1
  | 2 => s.q2
  | 3 => s.q3

/-- The tray with die `d` replaced. -/
def State.setDie (s : State) (d : DieId) (x : Die) : State :=
  match d with
  | 0 => { s with q0 := x }
  | 1 => { s with q1 := x }
  | 2 => { s with q2 := x }
  | 3 => { s with q3 := x }

/-- The tray with die `d` changed. -/
def State.modDie (s : State) (d : DieId) (f : Die → Die) : State := s.setDie d (f (s.die d))

/-- The tray with every die changed. -/
def State.allDies (s : State) (f : Die → Die) : State :=
  { s with q0 := f s.q0, q1 := f s.q1, q2 := f s.q2, q3 := f s.q3 }

/-- Send something out of the tray. -/
def State.emit (s : State) (o : Out) : State := { s with out := s.out ++ [o] }

/-- The state at the start of a command: nothing sent yet. -/
def State.fresh (s : State) : State := { s with out := [] }

/-- The core domain of the die is powered. -/
def Die.on (x : Die) : Bool := x.core == .on

/-- Port `p` of a die. -/
def Die.port (x : Die) (p : Nat) : Port := Map.lookD x.ports p {}

/-- The die with port `p` changed. -/
def Die.modPort (x : Die) (p : Nat) (f : Port → Port) : Die := { x with ports := Map.put x.ports p (f (x.port p)) }

/-- The die with its written tables changed; lookups see the change from the next tick (R84). -/
def Die.modTab (x : Die) (f : Tables → Tables) : Die := { x with tab := f x.tab }

/-- The die with a change that takes effect at a boundary: lookups of the tick that begins see it (R636). -/
def Die.modBoth (x : Die) (f : Tables → Tables) : Die := { x with tab := f x.tab, view := f x.view }

/-- The tick after the current one of a die: changes "from the next boundary" take effect in it. -/
def Die.nextTick (x : Die) : Tick := x.now + 1

/-- Period of a code in ns (spec/02 Table 02-1). -/
def periodNs (code : BitVec 2) : Nat := if code = 0 then 200 else if code = 2 then 800 else 400

/-- Tick period of a die in ns. -/
def Die.ns (x : Die) : Nat := periodNs x.tick.period

/-! ### Tables -/

/-- Partition `p` in a set of tables. -/
def Tables.part (t : Tables) (p : Nat) : Part := Map.lookD t.parts p {}

/-- The tables with partition `p` changed. -/
def Tables.modPart (t : Tables) (p : Nat) (f : Part → Part) : Tables := { t with parts := Map.put t.parts p (f (t.part p)) }

/-- Route versions of partition `p`. -/
def Tables.ver (t : Tables) (p : Nat) : Ver := Map.lookD t.vers p {}

/-- The tables with the route versions of partition `p` changed. -/
def Tables.modVer (t : Tables) (p : Nat) (f : Ver → Ver) : Tables := { t with vers := Map.put t.vers p (f (t.ver p)) }

/-- Route entry of `DST` `k` in version `v`. -/
def Tables.route (t : Tables) (v : Bool) (k : Nat) : BitVec 64 := Map.lookD (if v then t.route1 else t.route0) k 0

/-- The tables with a route entry written. -/
def Tables.setRoute (t : Tables) (v : Bool) (k : Nat) (e : BitVec 64) : Tables :=
  if v then { t with route1 := Map.put t.route1 k e } else { t with route0 := Map.put t.route0 k e }

/-- REACH[l]; all ones when never written (R666). -/
def Tables.reachOf (t : Tables) (l : Nat) : BitVec 32 := Map.lookD t.reach l (BitVec.allOnes 32)

/-- Group table entry. -/
def Tables.group (t : Tables) (g : Nat) : Group := Map.lookD t.groups g {}

/-- Circuit table entry. -/
def Tables.circuit (t : Tables) (c : Nat) : BitVec 64 := Map.lookD t.circuits c 0

/-- `LEASE_END` of a circuit. -/
def Tables.lease (t : Tables) (c : Nat) : Tick := Map.lookD t.leases c 0

/-- Sequence descriptor of (partition, sequence). -/
def Tables.seq (t : Tables) (p q : Nat) : BitVec 128 := Map.lookD t.seqs (64 * p + q) 0

/-- Directory entry. -/
def Tables.entry (t : Tables) (i : Nat) : DirEntry := Map.lookD t.dir i {}

/-- Segment. -/
def Tables.seg (t : Tables) (i : Nat) : Seg := Map.lookD t.segs i {}

/-- The default congestion mode of a virtual channel (spec/06 Table 06-4). -/
def defaultMode (vc : Nat) : BitVec 2 := if vc = 5 then 0 else if vc = 1 || vc = 2 then 1 else 2

/-- Congestion settings of (partition, VC). -/
def Tables.congOf (t : Tables) (p vc : Nat) : Cong := Map.lookD t.cong (8 * p + vc) { mode := defaultMode vc }

/-! ### Identity of the tray -/

/-- The identity in force is LEAF. -/
def State.isLeaf (s : State) : Bool := match s.boot.ident with | some r => !r.spine | none => false

/-- The identity in force is SPINE. -/
def State.isSpine (s : State) : Bool := match s.boot.ident with | some r => r.spine | none => false

/-- The plane (R14, R15). -/
def State.plane (s : State) : Nat :=
  match s.boot.ident with
  | some r => if r.spine then 2 * r.rack.toNat + r.slot.toNat / 8 else r.slot.toNat
  | none => 0

/-- Leaf index of leaf die Qn (R17). -/
def State.leafIndex (s : State) (d : DieId) : Nat :=
  match s.boot.ident with | some r => 4 * r.rack.toNat + d.val | none => d.val

/-- Spine die number of spine die Qn (R15, R16). -/
def State.spineDie (s : State) (d : DieId) : Nat :=
  match s.boot.ident with | some r => 4 * (r.slot.toNat % 8) + d.val | none => d.val

/-- Endpoint ID of a down port (R21, Table 01-2). -/
def State.endpointId (s : State) (d : DieId) (p : Nat) : BitVec 11 :=
  match s.boot.ident with
  | some r => BitVec.ofNat 11 (128 * (r.rack.toNat % 16) + 32 * d.val + p % 32)
  | none => BitVec.ofNat 11 (32 * d.val + p % 32)

/-- Port `p` is a down port of a leaf die (Table 01-4). -/
def State.isDown (s : State) (p : Nat) : Bool := s.isLeaf && decide (p < 32)

/-- Port `p` is an up port of a leaf die. -/
def State.isUp (s : State) (p : Nat) : Bool := s.isLeaf && decide (32 ≤ p) && decide (p < 64)

/-- In the SPINE role a bridge port carries no packets (R32). -/
def State.shutBridge (s : State) (p : Nat) : Bool := s.isSpine && decide (64 ≤ p) && decide (p < 70)

/-- The sibling that a bridge port joins (Table 01-5). -/
def sibling (d : DieId) (p : Nat) : DieId :=
  let k := (p - 64) / 2
  let n := if k < d.val then k else k + 1
  if h : n < 4 then ⟨n, h⟩ else d

/-- The lower bridge port of die `d` towards sibling `e`. -/
def bridgePort (d e : DieId) : Nat := 64 + 2 * (if e.val < d.val then e.val else e.val - 1)

/-- Leaf index of an endpoint ID (R17, Table 01-2). -/
def leafOf (e : BitVec 11) : Nat := e.toNat / 32

/-- The die whose clock the always-on block follows, and through which the tray claims: the lowest-numbered powered die
(R73, R548). -/
def State.clockDie (s : State) : Option DieId := [0, 1, 2, 3].find? fun d => (s.die d).on

/-- Tick period of the always-on block in ns. -/
def State.ns (s : State) : Nat := match s.clockDie with | some d => (s.die d).ns | none => periodNs s.elect.period

/-- Ticks that `n` ms last, rounded up. -/
def State.msTicks (s : State) (n : Nat) : Nat := (n * 1000000 + s.ns - 1) / s.ns

/-- A timed act of the power subsystem still waits. -/
def State.waits (s : State) (k : Nat) : Bool :=
  match Map.look s.pow.timers k with | some t => !reached s.boot.now t | none => false

/-- A timed act of the power subsystem waits for `n` ms from now. -/
def State.startTimer (s : State) (k n : Nat) : State :=
  { s with pow := { s.pow with timers := Map.put s.pow.timers k (s.boot.now + BitVec.ofNat 48 (s.msTicks n)) } }

/-- Heartbeat period HB of 100 ms in ticks. -/
def State.hb (s : State) : Nat := 100000000 / s.ns

/-! ### Counters (spec/18) -/

/-- Key of a counter: its ID of Table 18-1 with `UNIT` 0. -/
def ctrKey (cls port part vc index : Nat) : Nat :=
  cls * 2 ^ 26 + port * 2 ^ 16 + part * 2 ^ 12 + vc * 2 ^ 9 + index

/-- Add to a counter, modulo 2^64 (R615). -/
def addCtr (m : Map (BitVec 64)) (k n : Nat) : Map (BitVec 64) := Map.upd m k 0 fun v => v + BitVec.ofNat 64 n

/-- Add `n` to a counter of a die. -/
def Die.count (x : Die) (k : Nat) (n : Nat := 1) : Die := { x with ctr := addCtr x.ctr k n }

/-- A die counter scoped by port. -/
def cPort (cls index p : Nat) : Nat := ctrKey cls p 0 0 index

/-- A die counter scoped by partition. -/
def cPart (cls index part : Nat) : Nat := ctrKey cls 0x7F part 0 index

/-- A die counter of the whole die. -/
def cDie (cls index : Nat) : Nat := ctrKey cls 0x7F 0 0 index

/-- A counter scoped by partition and VC. -/
def cPartVc (cls index part vc : Nat) : Nat := ctrKey cls 0x7F part vc index

/-- Add `n` to a counter of the FC4. -/
def State.countFc (s : State) (k : Nat) (n : Nat := 1) : State :=
  { s with mbx := { s.mbx with ctr := addCtr s.mbx.ctr k n } }

/-! ### Codes, and the token -/

/-- Code of `STAGE` (Table 12-4). -/
def Stage.code : Stage → Nat
  | .alwaysOn => 0
  | .boot => 1
  | .fuseCheck => 2
  | .managerWait => 3
  | .preWarm => 4
  | .full => 5

/-- Code of `TICK_STATE` (Table 12-5). -/
def TickState.code : TickState → Nat
  | .unlocked => 0
  | .locked => 1
  | .holdover => 2
  | .tickFault => 3

/-- Every die. -/
def allDieIds : List DieId := [0, 1, 2, 3]

/-- The holder of the token in this tick: none from its lapse tick (R85, R405) and from the boundary of a release (R410). -/
def State.holder (s : State) : Option (Fin 4) :=
  if reached s.boot.now s.tok.lapse then none
  else match s.tok.release with
    | some t => if reached s.boot.now t then none else s.tok.holder
    | none => s.tok.holder

/-! ### Trace (spec/18) -/

/-- State of trace core `c`. -/
def State.core (s : State) (c : Nat) : TraceCore := Map.lookD s.trace.cores c {}

/-- The tray with trace core `c` changed. -/
def State.modCore (s : State) (c : Nat) (f : TraceCore → TraceCore) : State :=
  { s with trace := { s.trace with cores := Map.upd s.trace.cores c {} f } }

/-- The bytes of a trace record (Table 18-3). -/
def traceRec (type core : Nat) (seq : BitVec 32) (tick : Tick) (payload : List Byte) : List Byte :=
  let n := 16 + (payload.length + 15) / 16 * 16
  padTo n (le 1 type ++ le 1 core ++ le 2 n ++ le 4 seq.toNat ++ le 8 tick.toNat ++ payload)

/-- Bytes staged in a core's FIFO. -/
def fifoBytes (c : TraceCore) : Nat := c.fifo.foldl (fun a r => a + r.length) 0

/-- Stage one record, or discard and count it when the FIFO is full (R626). A record is work of the core (R628; DESIGN CHOICE, log
entry 140). -/
def TraceCore.stage (c : TraceCore) (core : Nat) (tick : Tick) (type : Nat) (payload : List Byte) : TraceCore × Nat :=
  let r := traceRec type core c.seq tick payload
  let c := { c with worked := tick }
  if fifoBytes c + r.length ≤ 2048 then ({ c with fifo := c.fifo ++ [r], seq := c.seq + 1 }, 0)
  else
    ({ c with seq := c.seq + 1,
              lost := some (match c.lost with | some (n, q) => (n + 1, q) | none => (1, c.seq)) }, 1)

/-- The payload of a SYNC record (Table 18-4). -/
def State.syncPayload (s : State) : List Byte :=
  [BitVec.ofNat 8 s.boot.stage.code, s.pow.state.setWidth 8, s.pow.grade,
   match s.holder with | some h => BitVec.ofNat 8 h.val | none => 0xFF] ++
    le 4 s.tok.epoch.toNat ++ le 8 s.tok.lapse.toNat ++
    ([0, 1, 2, 3].flatMap fun c => le 4 (Map.lookD s.evs.next c 0).toNat) ++
    (allDieIds.map fun d => BitVec.ofNat 8 (s.die d).tick.state.code) ++
    [match s.clockDie with | some d => (s.die d).tick.epoch | none => 0, 0, 0, 0] ++ le 4 s.trace.lost.toNat

/-- A core that begins to run: RESUME and then SYNC are its first records, and `LOST_SLEEP` is cleared (R631). -/
def State.resumed (s : State) (c : Nat) (cause : Nat) : TraceCore :=
  let k := s.core c
  let resume := [BitVec.ofNat 8 cause, if k.sleepMissing then 1 else 0, 0, 0] ++ le 4 k.lostSleep.toNat ++ le 8 k.sleepTick.toNat
  let k := { k with cond := .run, lostSleep := 0 }
  let k := (k.stage c s.boot.now 0x02 resume).1
  (k.stage c s.boot.now 0x03 s.syncPayload).1

/-- A core begins to run (R631). -/
def State.resumeCore (s : State) (c : Nat) (cause : Nat) : State := s.modCore c fun _ => s.resumed c cause

/-- A running core stages a record, after a LOST record that waits and fits; the number of records discarded (R624 to R626). -/
def TraceCore.push (c : TraceCore) (core : Nat) (now : Tick) (type : Nat) (payload : List Byte) : TraceCore × Nat :=
  let first : TraceCore × Nat :=
    match c.lost with
    | some (n, q) =>
      if fifoBytes c + 32 ≤ 2048 then ({ c with lost := none }).stage core now 0x08 (le 4 n ++ le 4 q.toNat) else (c, 0)
    | none => (c, 0)
  let second := first.1.stage core now type payload
  (second.1, first.2 + second.2)

/-- Count trace records of a core that are lost (R625, R626). -/
def State.countLost (s : State) (core n : Nat) : State :=
  if n = 0 then s
  else ({ s with trace := { s.trace with lost := s.trace.lost + BitVec.ofNat 32 n } }).countFc (ctrKey 0x23 core 0 0 0) n

/-- A core writes a trace record (R624 to R626). The work of the record wakes a core in SLEEP (R628, R631); a core that is OFF writes
nothing. -/
def State.traceWrite (s : State) (core type : Nat) (payload : List Byte) : State :=
  let k := if (s.core core).cond == .sleep then s.resumed core 0 else s.core core
  if k.cond != .run then s
  else
    let r := k.push core s.boot.now type payload
    (s.modCore core fun _ => r.1).countLost core r.2

/-- Write one record to the trace buffer, after a PAD when it does not fit before the end (R623). -/
def Trace.store (t : Trace) (r : List Byte) : Trace :=
  let size := 1048576
  let t :=
    if t.woff + r.length ≤ size then t
    else
      let pad := padTo (size - t.woff) (le 1 0x0F ++ le 1 4 ++ le 2 (size - t.woff))
      { t with mem := Mem.writes 0 t.mem t.woff pad, woff := 0, wraps := t.wraps + 1 }
  let t := { t with mem := Mem.writes 0 t.mem t.woff r }
  if t.woff + r.length = size then { t with woff := 0, wraps := t.wraps + 1 } else { t with woff := t.woff + r.length }

/-- The FIFO of core `c` delivers up to `n` records to the buffer (R626). -/
def State.deliver (s : State) (c : Nat) : Nat → State
  | 0 => s
  | n + 1 =>
    match (s.core c).fifo with
    | [] => s
    | r :: rest =>
      State.deliver ({ s with trace := s.trace.store r }.modCore c fun k => { k with fifo := rest }) c n

/-! ### Events (spec/11 R415 to R417, spec/13 Table 13-7) -/

/-- An event head with every field "none". -/
def Event.mk0 (op : Nat) (tick : Tick) : Event :=
  { op := BitVec.ofNat 16 op, tick := tick, die := 0xFF, port := 0xFF, part := 0xFF, vc := 0xFF, cause := 0, detail := [] }

/-- The 32 B payload of an event (Table 13-7, Table 13-8). -/
def Event.bytes (e : Event) : List Byte :=
  padTo 32 (le 8 e.tick.toNat ++ [e.die, e.port, e.part, e.vc, e.cause, 0, 0, 0] ++ padTo 16 e.detail)

/-- Number of a channel: 0 ETH0, 1 ETH1, 2 MSPA, 3 MSPB, 4 to 7 IB0 to IB3 (Table 18-4). -/
def chanNum : Channel → Nat
  | .eth0 => 0
  | .eth1 => 1
  | .mspA => 2
  | .mspB => 3
  | .ib d => 4 + d.val

/-- The management channel of a number. -/
def chanOf (n : Nat) : Channel := if n = 0 then .eth0 else if n = 1 then .eth1 else if n = 2 then .mspA else .mspB

/-! ### Datagrams (R391, R392) -/

/-- The IPv6 fragments in which the FC4 sends a datagram of `n` bytes over a link whose MTU is 1,500 B, each its offset and length: a
fragment's packet is 40 B of IPv6 header, 8 B of fragment header and a multiple of 8 B, unless it is the last. -/
def fragsOf (n : Nat) : List (Nat × Nat) :=
  if n ≤ 1460 then [(0, n)] else (List.range ((n + 1447) / 1448)).map fun i => (1448 * i, min 1448 (n - 1448 * i))

/-- The fragments cover bytes `at_` to `n` of a datagram, each once: `k` of them are left to find. -/
def fragsCover (l : List (Nat × Nat)) (n : Nat) : Nat → Nat → Bool
  | 0, at_ => at_ == n
  | k + 1, at_ =>
    match l.find? fun e => e.1 == at_ with
    | some e => decide (0 < e.2) && (decide (e.2 % 8 = 0) || at_ + e.2 == n) && fragsCover l n k (at_ + e.2)
    | none => false

/-- Bytes of a frame's datagram: the 8 B UDP header, the 32 B header and the payload (R393). -/
def datagramOf (f : Frame) : Nat := 40 + f.payloadLen.toNat

/-- The datagram of a frame is complete: it came whole, or its fragments reassemble to at most 4,160 B (R391). -/
def wholeFrame (f : Frame) : Bool :=
  !(f.chan == .eth0 || f.chan == .eth1) || f.frags.isEmpty ||
    (decide ((datagramOf f) ≤ 4160) && fragsCover f.frags (datagramOf f) f.frags.length 0)

/-- The signature of a frame verifies against a public key (R399, R400). -/
def verifies (f : Frame) (k : PubKey) : Bool := signedBy k f.signed f.sig

/-- What leaves an Ethernet port with a frame of `n` payload bytes: its datagram, to address and port `dest`. -/
def linkOut (c : Channel) (dest : BitVec 144) (n : Nat) : List Out :=
  match c with
  | .eth0 => [.datagram false dest (fragsOf (40 + n))]
  | .eth1 => [.datagram true dest (fragsOf (40 + n))]
  | _ => []

/-- Send the datagram of a frame, on an Ethernet channel. -/
def State.toLink (s : State) (c : Channel) (dest : BitVec 144) (n : Nat) : State := { s with out := s.out ++ linkOut c dest n }

/-- The datagram of an event on channel `c`: none before a signed command has been accepted on it (R392). -/
def State.eventLink (s : State) (c : Nat) : List Out :=
  match Map.look s.mbx.peers c with
  | some dest => linkOut (chanOf c) dest 32
  | none => []

/-- Post an event on one management channel, or discard and count it when the queue is full (R415, R417). -/
def State.post (s : State) (c : Nat) (ev : Event) : State :=
  let q := Map.lookD s.evs.queues c []
  if q.length < 256 then
    let n := Map.lookD s.evs.next c 0
    { s with evs := { s.evs with queues := Map.put s.evs.queues c (q ++ [{ seq := n, ev := ev, sent := s.boot.now }]),
                                 next := Map.put s.evs.next c (n + 1) },
             out := s.out ++ .event (chanOf c) n ev :: s.eventLink c }
  else
    ({ s with evs := { s.evs with lost := Map.upd s.evs.lost c 0 (· + 1) } }).countFc (ctrKey 0x24 c 0 0 0)

/-! ### Mailbox packets of the FC4 (spec/11 R393, R418) -/

/-- The fields of an in-band FMP frame of the FC4 (Table 11-3) that its kinds fill differently; a field that a kind gives no meaning is
zero (DEDUCED, log entry 124). -/
structure FrameHead where
  kind : Nat
  op : BitVec 16
  tag : BitVec 16 := 0
  slot : Byte := 0
  part : Byte := 0xFF
  status : Nat := 0
  epoch : BitVec 32 := 0
  seq : BitVec 32
  origin : BitVec 16 := 0xFFFF

/-- The bytes of an in-band FMP frame of the FC4: unsigned, with `ROUTE` 0 (R393, Table 11-3). -/
def FrameHead.bytes (h : FrameHead) (payload : List Byte) : List Byte :=
  let head := [0x46, 0x4D, 3, BitVec.ofNat 8 h.kind] ++ le 2 h.op.toNat ++ le 2 h.tag.toNat ++ [h.slot, h.part, 0xFF, 0] ++
    le 2 payload.length ++ le 2 h.status ++ le 4 h.epoch.toNat ++ le 4 h.seq.toNat ++ le 2 h.origin.toNat ++ le 2 0
  head ++ le 4 (crc32c (head ++ payload)) ++ payload

/-- The FC4 gives a mailbox packet to port 70 of a die, naming its egress port (R418). -/
def State.mail (s : State) (m : Mail) : State := { s with mbx := { s.mbx with outbox := s.mbx.outbox ++ [m] } }

/-- Send an event to the in-band subscribers of its partition, one mailbox packet each (spec/11, Events). -/
def State.tellSubs (s : State) (ev : Event) : State :=
  (Map.lookD s.evs.subs ev.part.toNat []).foldl (fun s u =>
    (s.emit (.inband u.d u.port ev)).mail
      { d := u.d, port := u.port, type := 3, tag := none,
        bytes := { kind := 3, op := ev.op, part := ev.part, epoch := s.tok.epoch, seq := Config.mailSeq ev.op (ev.tick.setWidth 16)
                   : FrameHead }.bytes ev.bytes }) s

/-- Raise an event: on every management channel, to the subscribers of its partition, and in the trace (R414, R415, R624). -/
def State.raise (s : State) (ev : Event) : State :=
  let s := [0, 1, 2, 3].foldl (fun s c => s.post c ev) s
  let s := s.tellSubs ev
  s.traceWrite 3 0x05 (le 2 ev.op.toNat ++ [ev.part, ev.die, ev.cause])

/-- Raise an event of a die. -/
def State.raiseDie (s : State) (op : Nat) (d : DieId) (port part vc : Byte) (cause : Byte) (detail : List Byte) : State :=
  s.raise { Event.mk0 op (s.die d).now with die := BitVec.ofNat 8 d.val, port := port, part := part, vc := vc,
                                            cause := cause, detail := detail }

/-- Raise an event of the tray. -/
def State.raiseTray (s : State) (op : Nat) (cause : Byte) (detail : List Byte) : State :=
  s.raise { Event.mk0 op s.boot.now with cause := cause, detail := detail }

/-! ### Status codes and responses -/

/-- The code of a status (Table 11-8). -/
def Status.code : Status → Nat
  | .ok => 0x0000
  | .accepted => 0x0001
  | .busy => 0x0002
  | .badVersion => 0x0010
  | .unknownOpcode => 0x0011
  | .badLength => 0x0012
  | .badField => 0x0013
  | .slotBusy => 0x0014
  | .badRoute => 0x0015
  | .dieOff => 0x0016
  | .noCredential => 0x0020
  | .keyUnknown => 0x0021
  | .slotRevoked => 0x0022
  | .badSignature => 0x0023
  | .replayed => 0x0024
  | .notTokenHolder => 0x0025
  | .staleToken => 0x0026
  | .tokenHeld => 0x0027
  | .lostRace => 0x0028
  | .notPrivileged => 0x0029
  | .partMismatch => 0x002A
  | .debugLocked => 0x002B
  | .invalidForRole => 0x0030
  | .partState => 0x0031
  | .portsAssigned => 0x0032
  | .portAssigned => 0x0033
  | .noSegment => 0x0034
  | .quotaShort => 0x0035
  | .portInService => 0x0036
  | .versionBusy => 0x0040
  | .notSealed => 0x0041
  | .tooLate => 0x0042
  | .notDrained => 0x0043
  | .groupShape => 0x0050
  | .groupFormat => 0x0051
  | .noPots => 0x0052
  | .slotTaken => 0x0058
  | .overCap => 0x0059
  | .dirRange => 0x0060
  | .dirOverlap => 0x0061
  | .noSeq => 0x0062
  | .outOfRange => 0x0063
  | .ownerPart => 0x0064
  | .slotUsed => 0x0070
  | .lastKey => 0x0071
  | .fuseExhausted => 0x0072
  | .rollbackAhead => 0x0073
  | .internal => 0x00FF

/-- A command as Tables 12-1, 13-1 and 13-5 list it. -/
structure Cmd where
  op : Nat
  /-- Marked Change: it needs the manager token (R404, R429). -/
  change : Bool
  /-- In-band capability bit of Table 10-6. -/
  cap : Option Nat := none
  /-- Length of the request payload without signature. -/
  len : Nat
  /-- An identity read, `mgr.nonce`, or another command that may come unsigned (R398). -/
  unsignedOk : Bool := false
  /-- An identity read (R13, R377). -/
  identity : Bool := false
  /-- The partition it names. -/
  part : Option Byte := none
  /-- Needs no token although it is a change: the token's own commands (R407, R403). -/
  noToken : Bool := false
  /-- `mgr.key`, which R403 alone authenticates. -/
  ownAuth : Bool := false
  /-- Names only VC1 and VC2 (R263). -/
  vcOk : Bool := true

/-- What a command's own work answers: a response, or none yet (its slot stays occupied). -/
inductive Reply where
  | now (st : Status) (payload : List Byte)
  | later

/-- Mailbox key of a channel's slot. -/
def slotKey (c : Channel) (slot : Byte) : Nat := 16 * (chanNum c) + slot.toNat % 16

/-- Slot states of an MSP channel when the FC4 has answered the slot (R529). -/
def Msp.finish (m : Msp) (slot : Nat) : Msp :=
  { m with slots := Map.put m.slots slot .done, taken := Map.rem m.taken slot }

/-- The slot of an MSP channel is DONE once its response is ready (R529). -/
def State.finishMsp (s : State) (f : Frame) : State :=
  match f.chan with
  | .mspA => { s with mspA := s.mspA.finish (f.slot.toNat % 16) }
  | .mspB => { s with mspB := s.mspB.finish (f.slot.toNat % 16) }
  | _ => s

/-- A response frees the mailbox slot that its request held and becomes the slot's copy (R397): not on an in-band channel, whose slots
the FC4 takes itself (R419), and not when the slot holds an earlier request still or is no slot of the channel. -/
def endsSlot (f : Frame) (st : Status) : Bool :=
  match f.chan with
  | .ib _ => false
  | _ => st != .slotBusy && decide (f.slot.toNat ≤ 15)

/-- The mailbox after a response: the slot is free and holds the response's copy (R394, R397). -/
def State.endSlot (s : State) (f : Frame) (op : Nat) (st : Status) (payload : List Byte) : State :=
  if endsSlot f st then
    let k := slotKey f.chan f.slot
    let copy : RespCopy :=
      { op := BitVec.ofNat 16 op, tag := f.tag, cmdSeq := f.cmdSeq, part := f.hpart, epoch := s.tok.epoch, status := st,
        payload := payload }
    ({ s with mbx := { s.mbx with slots := Map.rem s.mbx.slots k, copies := Map.put s.mbx.copies k copy } }).finishMsp f
  else s

/-- Endpoint ID of an in-band requester: that of the down port on which its request entered, or the one that the leaf tray kept (R419,
R420). -/
def State.originOf (s : State) (f : Frame) (d : DieId) : BitVec 16 :=
  if s.isDown f.port.val then (s.endpointId d f.port.val).setWidth 16 else f.origin

/-- The response to an in-band request goes back by a mailbox packet (R418). -/
def State.mailBack (s : State) (f : Frame) (op : Nat) (st : Status) (payload : List Byte) : State :=
  match f.chan with
  | .ib d =>
    s.mail { d := d, port := f.port.val, type := 2, tag := some f.tag,
             bytes := { kind := 2, op := BitVec.ofNat 16 op, tag := f.tag, slot := f.slot, part := f.hpart, status := st.code,
                        epoch := s.tok.epoch, seq := Config.mailSeq (BitVec.ofNat 16 op) f.tag, origin := s.originOf f d
                        : FrameHead }.bytes payload }
  | _ => s

/-- Send the response to a request: emitted, given to port 70 in-band (R418), kept as the slot's copy on a management channel (R397), and
traced (R624). -/
def State.answer (s : State) (f : Frame) (op : Nat) (st : Status) (payload : List Byte) : State :=
  ((((s.emit (.resp f.chan f.slot (BitVec.ofNat 16 op) f.tag st s.tok.epoch payload)).toLink f.chan f.addr payload.length).mailBack f op st
    payload).endSlot f op st
    payload).traceWrite 0 0x04
    ([BitVec.ofNat 8 (chanNum f.chan), f.slot] ++ le 2 op ++ le 2 f.tag.toNat ++ le 2 st.code ++ [f.hpart, f.cred])

/-! ### Key slots and capabilities (spec/10) -/

/-- Bit of the fuse array. -/
def State.fuseBit (s : State) (i : Nat) : Bool := s.fuse.bits.getLsbD i

/-- State of a key slot (Table 10-5): 0 EMPTY, 1 ACTIVE, 2 REVOKED. -/
def State.keyState (s : State) (k : Nat) : Nat :=
  if s.fuseBit (448 + 392 * k) then (if s.fuseBit (449 + 392 * k) then 2 else 1) else 0

/-- Every key slot is EMPTY (R373). -/
def State.noKeys (s : State) : Bool := [0, 1, 2, 3].all fun k => s.keyState k == 0

/-- A class holds a capability (R376): ENDPOINT when `peer` is false, PEER otherwise. -/
def State.holds (s : State) (peer : Bool) (cap : Nat) : Bool :=
  let base := if peer then 1800 else 1784
  s.fuseBit (base + cap) && !s.fuseBit (base + 8 + cap)

/-- The partition of the down port on which an in-band frame entered; for a relayed frame, the `PART` that the leaf tray
kept (R420, R421). -/
def State.originPart (s : State) (f : Frame) (d : DieId) : Option Nat :=
  if s.isDown f.port.val then (Map.look (s.die d).view.portPart f.port.val).map BitVec.toNat
  else if f.hpart.toNat < 16 then some f.hpart.toNat else none

/-- The FC4 runs its transports: from MANAGER_WAIT on, in T2, and in BOOT when the ROM serves MSP (R535, R541). -/
def State.listening (s : State) : Bool :=
  match s.boot.stage with
  | .managerWait | .preWarm | .full => true
  | .fuseCheck => s.pow.state == 2
  | .boot => s.boot.romOnly
  | .alwaysOn => false

/-- A request reaches the FC4's transports whole (R391, R535). -/
def State.hears (s : State) (f : Frame) : Bool := s.listening && wholeFrame f

/-- Opcodes that the boot ROM serves (R541). -/
def romOps : List Nat :=
  [0x0101, 0x0201, 0x0E04, 0x0E01, 0x0E02, 0x0E03, 0x0D01, 0x0230, 0x0231, 0x0232, 0x0233, 0x0234, 0x0235]

/-- The mailbox slot of a request can take it: on a management channel the requester's slot is free (check 4); in-band the FC4
finds a free slot of the die's channel (R419). -/
def State.checkSlot (s : State) (f : Frame) : Option Status :=
  match f.chan with
  | .ib d => if (List.range 16).all fun i => (Map.look s.mbx.slots (16 * (4 + d.val) + i)).isSome then some .busy else none
  | c =>
    if f.slot.toNat > 15 then some .badField
    else if (Map.look s.mbx.slots (slotKey c f.slot)).isSome then some .slotBusy else none

/-- Checks 3 to 6 of Table 11-4. -/
def State.checkFrame (s : State) (c : Cmd) (f : Frame) : Option Status :=
  if f.version ≠ 3 && !c.identity then some .badVersion
  else match s.checkSlot f with
    | some st => some st
    | none =>
      if s.boot.romOnly && (!romOps.contains c.op || !(f.chan == .mspA || f.chan == .mspB)) then some .unknownOpcode
      else if f.payloadLen.toNat ≠ c.len + (if f.cred = 0xFF then 0 else 96) then some .badLength
      else none

/-- Check 7 of Table 11-4 on a management channel (R398 to R401, R373). -/
def State.checkKey (s : State) (c : Cmd) (f : Frame) : Option Status :=
  if c.ownAuth then none
  else if f.cred = 0xFF then (if c.unsignedOk then none else some .noCredential)
  else if s.noKeys && c.change then some .noCredential
  else if f.cred.toNat > 3 then some .keyUnknown
  else if s.keyState f.cred.toNat = 0 then some .keyUnknown
  else if s.keyState f.cred.toNat = 2 then some .slotRevoked
  else
    match Map.look s.tok.keys f.cred.toNat with
    | none => some .keyUnknown
    | some k =>
      if !verifies f k then some .badSignature
      else
        match Map.look s.tok.seqs f.cred.toNat with
        | some q => if f.cmdSeq.toNat ≤ q.toNat then some .replayed else none
        | none => none

/-- Check 8 of Table 11-4 (R404). -/
def State.checkToken (s : State) (c : Cmd) (f : Frame) : Option Status :=
  if !c.change || c.noToken then none
  else
    match s.holder with
    | none => if s.noKeys && c.unsignedOk then none else some .notTokenHolder
    | some h =>
      if f.cred.toNat ≠ h.val then some .notTokenHolder
      else if f.tokenEpoch ≠ s.tok.epoch then some .staleToken
      else none

/-- Check 9 of Table 11-4 for an in-band frame on die `d` (R376, R377, R263, R421, R464). -/
def State.checkInband (s : State) (c : Cmd) (f : Frame) (d : DieId) : Option Status :=
  match c.cap with
  | none => some .notPrivileged
  | some k =>
    if !s.holds false k then some .notPrivileged
    else if !c.vcOk then some .notPrivileged
    else if c.identity then none
    else
      match s.originPart f d with
      | none => some .notPrivileged
      | some p => match c.part with
        | some q => if q.toNat = p then none else some .partMismatch
        | none => none

/-- Checks 7 to 9 of Table 11-4. -/
def State.checkAuth (s : State) (c : Cmd) (f : Frame) : Option Status :=
  match f.chan with
  | .ib d => s.checkInband c f d
  | _ => match s.checkKey c f with
    | some st => some st
    | none => s.checkToken c f

/-- The response copy that a repeated request receives: it repeats the slot, `TAG` and `CMD_SEQ` of the slot's last response (R397). -/
def State.repeatOf (s : State) (f : Frame) : Option RespCopy :=
  match f.chan with
  | .ib _ => none
  | _ =>
    if f.slot.toNat > 15 then none
    else match Map.look s.mbx.copies (slotKey f.chan f.slot) with
      | some r => if r.tag = f.tag ∧ r.cmdSeq = f.cmdSeq then some r else none
      | none => none

/-- A signed request that is accepted: its sequence becomes the slot's last (R401), and its sender the peer of the Ethernet
port (R392). -/
def State.noteAccepted (s : State) (f : Frame) : State :=
  match f.chan with
  | .ib _ => s
  | c =>
    if f.cred = 0xFF then s
    else
      let s := { s with tok := { s.tok with seqs := Map.put s.tok.seqs f.cred.toNat f.cmdSeq } }
      if (chanNum c) < 2 then { s with mbx := { s.mbx with peers := Map.put s.mbx.peers (chanNum c) f.addr } } else s

/-- Serve a request (R394, R395): the checks of Table 11-4 in order, then the command's own checks and work. -/
def State.serve (s0 : State) (c : Cmd) (f : Frame) (body : State → State × Reply) : State :=
  let s := s0.fresh
  if !s.hears f then s
  else if !f.magicOk then s.countFc (ctrKey 0x20 0x7F 0 0 0)
  else if !f.crcOk then s.countFc (ctrKey 0x20 0x7F 0 0 1)
  else
    match s.repeatOf f with
    | some r => ((s.emit (.copy f.chan f.slot r.op r.tag r.status r.payload)).toLink f.chan f.addr r.payload.length).finishMsp f
    | none =>
      match s.checkFrame c f with
      | some st => s.answer f c.op st []
      | none =>
        if f.route ≠ 0 then s.answer f c.op .badRoute []
        else
          match s.checkAuth c f with
          | some st => s.answer f c.op st []
          | none =>
            match body s with
            | (t, .now st payload) =>
              (if st = .ok ∨ st = .accepted then t.noteAccepted f else t).answer f c.op st payload
            | (t, .later) => t.noteAccepted f

/-- Serve a read: a response that changes nothing else. -/
def State.serveRead (s : State) (c : Cmd) (f : Frame) (read : State → Status × List Byte) : State :=
  s.serve c f fun t => (t, .now (read t).1 (read t).2)

/-! ### Commands with a die mask (R427, R428, R387) -/

/-- Carry out a command's work on one die of the mask, beside what it has done so far: the die's status, and what the work answers
beside it, `no` for a die outside the mask or without power. -/
def overOne {α : Type} (mask : Byte) (no : α) (act : DieId → State → State × Status × α) (acc : State × List Status × List α)
    (d : DieId) : State × List Status × List α :=
  if mask.getLsbD d.val then
    if (acc.1.die d).on then
      let r := act d acc.1
      (r.1, acc.2.1 ++ [r.2.1], acc.2.2 ++ [r.2.2])
    else (acc.1, acc.2.1 ++ [.dieOff], acc.2.2 ++ [no])
  else (acc.1, acc.2.1 ++ [.ok], acc.2.2 ++ [no])

/-- Carry out a command's work on each die of the mask, in ascending die order: the statuses, and what the work answers beside
them. -/
def State.overDiesWith {α : Type} (s : State) (mask : Byte) (no : α) (act : DieId → State → State × Status × α) :
    State × List Status × List α :=
  allDieIds.foldl (overOne mask no act) (s, [], [])

/-- Carry out a command's write on each die of the mask, in ascending die order. -/
def State.overDies (s : State) (mask : Byte) (act : DieId → State → State × Status) : State × List Status :=
  let r := s.overDiesWith mask () fun d t => ((act d t).1, (act d t).2, ())
  (r.1, r.2.1)

/-- The `DIE_RESULT` block (R428). -/
def dieResult (l : List Status) : List Byte := l.flatMap fun st => le 2 st.code

/-- A die mask is refused (R427). -/
def badMask (mask : Byte) : Bool := mask == 0 || decide (mask.toNat > 15)

/-- The die that a byte names, if there is one (R430). -/
def dieOf (b : Byte) : Option DieId := if h : b.toNat < 4 then some ⟨b.toNat, h⟩ else none

/-- MC1 records a command's write to a die (R624). -/
def State.traceDieWrite (s : State) (d : DieId) (table op first count : Nat) (st : Status) : State :=
  s.traceWrite 1 0x06 ([BitVec.ofNat 8 d.val, BitVec.ofNat 8 table] ++ le 2 op ++ le 4 first ++ le 2 count ++ le 2 st.code)

/-- Change one die of a mask: `act` answers the changed die or the status with which it refuses. The write is traced. -/
def dieAct (op table first count : Nat) (act : Die → Except Status Die) (d : DieId) (s : State) : State × Status :=
  match act (s.die d) with
  | .ok x => ((s.setDie d x).traceDieWrite d table op first count .ok, .ok)
  | .error st => (s.traceDieWrite d table op first count st, st)

/-- Serve a command whose request is a partition and a die mask and whose response is `DIE_RESULT` and then `more`. -/
def State.serveMaskWith {α : Type} (s : State) (c : Cmd) (f : Frame) (part mask : Byte) (bad : Bool) (no : α)
    (act : DieId → State → State × Status × α) (more : State → List α → List Byte) : State :=
  s.serve { c with part := some part } f fun t =>
    if part.toNat > 15 || bad || badMask mask then (t, .now .badField [])
    else
      let r := t.overDiesWith mask no act
      (r.1, .now .ok (dieResult r.2.1 ++ more r.1 r.2.2))

/-- Serve a command whose request is a partition and a die mask and whose response is `DIE_RESULT`. -/
def State.serveMask (s : State) (c : Cmd) (f : Frame) (part mask : Byte) (bad : Bool) (act : DieId → State → State × Status) :
    State :=
  s.serveMaskWith c f part mask bad () (fun d t => ((act d t).1, (act d t).2, ())) fun _ _ => []

/-- Serve a command on one die of a partition; `act` answers the changed tray and a response. -/
def State.serveDie (s : State) (c : Cmd) (f : Frame) (part die : Byte) (bad : Bool)
    (act : DieId → State → State × Status × List Byte) : State :=
  s.serve { c with part := some part } f fun t =>
    match dieOf die with
    | none => (t, .now .badField [])
    | some d =>
      if part.toNat > 15 || bad then (t, .now .badField [])
      else if (t.die d).on then
        let r := act d t
        (r.1, .now r.2.1 r.2.2)
      else (t, .now .dieOff [])

end Sys2Proof.Machine
end

