-- ==== Sys2Proof/Machine/Operands.lean ====
section
/-! DEFINITION. The operand forms: the packet header (spec/03 Table 03-2), the link control words (spec/02 Tables 02-2 and 02-4,
spec/04 Tables 04-3, 04-5 and 04-10, spec/06 Tables 06-1 and 06-2), the entries of the tables of a die, and the heads and words
of the collectives (spec/07 Tables 07-1, 07-4 and 07-7). -/

namespace Sys2Proof.Machine

/-! ### The packet header -/

/-- Bits 0 to 223 of a header (Table 03-2). -/
def Hdr.body (h : Hdr) : BitVec 224 :=
  0#56 ++ h.rstat ++ h.tag ++ 0#1 ++ h.len ++ h.circuit ++ h.seqId ++ h.pos ++ h.pour ++ h.group ++ h.seq ++ 0#1 ++
    b1 h.echo ++ b1 h.mark ++ b1 h.gap ++ b1 h.fence ++ b1 h.epoch ++ h.type ++ h.vc ++ h.part ++ h.src ++ h.dst

/-- `HCRC` of header bits 0 to 223 (R91). -/
def hcrc (b : BitVec 224) : BitVec 32 := BitVec.ofNat 32 (crc32c (le 28 b.toNat))

/-- The header as it is sent, its `HCRC` recomputed (R97). -/
def Hdr.toWord (h : Hdr) : BitVec 256 := hcrc h.body ++ h.body

/-- The fields of a received header. -/
def Hdr.ofWord (w : BitVec 256) : Hdr :=
  { dst := fld w 0 11, src := fld w 11 11, part := fld w 22 4, vc := fld w 26 3, type := fld w 29 5,
    epoch := bit w 34, fence := bit w 35, gap := bit w 36, mark := bit w 37, echo := bit w 38,
    seq := fld w 40 16, group := fld w 56 12, pour := fld w 68 20, pos := fld w 88 24, seqId := fld w 112 6,
    circuit := fld w 118 12, len := fld w 130 13, tag := fld w 144 16, rstat := fld w 160 8 }

/-- `HCRC` of a received header is correct. -/
def hcrcOk (w : BitVec 256) : Bool := fld w 224 32 == hcrc (fld w 0 224)

/-- Zero in every field that Table 03-3 does not list for the header's `VC` (R92). -/
def Hdr.masked (h : Hdr) : Hdr :=
  let v := h.vc.toNat
  let grp := v == 1 || v == 2
  let ord := decide (3 ≤ v)
  let pos := v == 6 || v == 7
  { h with
    fence := h.fence && ord, gap := h.gap && ord,
    mark := h.mark && v != 5, echo := h.echo && v != 5,
    seq := if v = 3 then h.seq else 0,
    group := if grp then h.group else 0, pour := if grp then h.pour else 0,
    pos := if pos then h.pos else 0, seqId := if pos then h.seqId else 0,
    circuit := if v = 5 then h.circuit else 0,
    tag := if v = 0 || pos then h.tag else 0,
    rstat := if v = 7 then h.rstat else 0 }

/-- `TYPE` is permitted on `VC` (Table 03-4); DIAG only from port 71 (Table 03-5). -/
def typeOk (type vc : Nat) (port : Nat) : Bool :=
  match type with
  | 0x01 | 0x02 | 0x03 => vc == 0
  | 0x08 | 0x09 => vc == 1
  | 0x0A | 0x0B => vc == 2
  | 0x10 => vc == 3
  | 0x11 => vc == 4
  | 0x12 => vc == 3 || vc == 4 || vc == 6 || vc == 7
  | 0x14 => vc == 5
  | 0x18 => vc == 6
  | 0x1A | 0x1B => vc == 7
  | 0x1F => port == 71
  | _ => false

/-- Cells of a packet (R104). -/
def cellsOf (len : Nat) : Nat := (len + 255) / 256

/-- State key of a packet's partition and virtual channel. -/
def Hdr.key (h : Hdr) : Nat := 8 * h.part.toNat + h.vc.toNat

/-- Bytes of a packet in the data stream: 32 + `LEN`. -/
def Hdr.bytes (h : Hdr) : Nat := 32 + h.len.toNat

/-! ### Link control words -/

/-- CRC-16 over bytes 0 to 13 of a control word (R54, R131). -/
def mcrc (w : CtlWord) : BitVec 16 := BitVec.ofNat 16 (crc16 (le 14 w.toNat))

/-- `MCRC` of a control word is correct. -/
def mcrcOk (w : CtlWord) : Bool := fld w 112 16 == mcrc w

/-- `CW_TYPE`. -/
def cwType (w : CtlWord) : Nat := (fld w 0 8).toNat

/-- A control word of a type: bits [111:8] and the `MCRC`. -/
def cword (type : BitVec 8) (body : BitVec 104) : CtlWord :=
  let w : CtlWord := 0#16 ++ body ++ type
  mcrc w ++ body ++ type

/-- A tick marker (Table 02-2). -/
def markerWord (count : Tick) (allow : Byte) (period : BitVec 2) (hold : Bool) (hop : BitVec 4) (epoch : Byte) : CtlWord :=
  cword 0xA1 (0#32 ++ epoch ++ hop ++ 0#1 ++ b1 hold ++ period ++ allow ++ count)

/-- A tick claim word (Table 02-4). -/
def claimWord (prio : Byte) (serial : BitVec 48) (epoch : Byte) (period : BitVec 2) : CtlWord :=
  cword 0xA2 (0#38 ++ period ++ epoch ++ serial ++ prio)

/-- A FLOW word of four entries (Table 06-1). -/
def flowWordOf (e0 e1 e2 e3 : BitVec 21) : CtlWord := cword 0xA3 (0#20 ++ e3 ++ e2 ++ e1 ++ e0)

/-- A FLOW entry (Table 06-2). -/
def flowEntry (part : BitVec 4) (pool : Bool) (xoff want : BitVec 8) : BitVec 21 := want ++ xoff ++ b1 pool ++ part

/-- An ACK (Table 04-3). -/
def ackWord (seq : BitVec 16) : CtlWord := cword 0xA5 (0#88 ++ seq)

/-- A NAK (Table 04-3). -/
def nakWord (seq : BitVec 16) : CtlWord := cword 0xA6 (0#88 ++ seq)

/-- A STOMP (Table 04-2). -/
def stompWord : CtlWord := cword 0xA7 0

/-- A WIDTH_REQ (Table 04-3). -/
def widthWord (lanes : BitVec 4) (slow : Bool) (reason : BitVec 3) (lost : BitVec 4) (tick : Tick) : CtlWord :=
  cword 0xA9 (0#44 ++ tick ++ lost ++ reason ++ b1 slow ++ lanes)

/-- A DELAY_PROBE (Table 04-3). -/
def probeWord (reply : Bool) (time : BitVec 48) (turn : BitVec 32) (margin : BitVec 16) : CtlWord :=
  cword 0xAB (margin ++ turn ++ time ++ 0#7 ++ b1 reply)

/-- A TRAIN_ID of a Q die (Table 04-5). -/
def trainWord (plane : BitVec 2) (spine : Bool) (die : BitVec 2) (position : BitVec 6) (port : BitVec 7) (eid : BitVec 11)
    (serial : BitVec 48) (locked : BitVec 4) (fullRate : Bool) : CtlWord :=
  cword 0xA8 (0#21 ++ b1 fullRate ++ locked ++ serial ++ eid ++ port ++ position ++ die ++ b1 spine ++ plane ++ 0#1)

/-- A SWEEP word (Table 04-10). -/
def sweepWord (op : BitVec 4) (lane : BitVec 2) (farRx : Bool) (id : Byte) (phase voff : BitVec 6) (dwell errors : BitVec 16)
    (point : BitVec 12) : CtlWord :=
  cword 0xAA (0#32 ++ point ++ errors ++ dwell ++ voff ++ phase ++ id ++ 0#1 ++ b1 farRx ++ lane ++ op)

/-! ### Table entries -/

/-- `KIND` of a route entry (Table 05-1): 0 INVALID, 1 DIRECT, 2 BRIDGE, 3 SPINE. -/
def rtKind (e : BitVec 64) : Nat := (fld e 0 2).toNat

/-- `PORT` of a route entry. -/
def rtPort (e : BitVec 64) : Nat := (fld e 2 7).toNat

/-- `PART` of a route entry. -/
def rtPart (e : BitVec 64) : Nat := (fld e 9 4).toNat

/-- `SPINE_MASK` of a route entry. -/
def rtMask (e : BitVec 64) : BitVec 32 := fld e 16 32

/-- A route entry with its reserved bits zero (R7). -/
def rtClean (e : BitVec 64) : BitVec 64 := e &&& 0x0000FFFFFFFF1FFF#64

/-- `VALID` of a circuit entry (Table 05-4). -/
def ccValid (e : BitVec 64) : Bool := bit e 0

/-- `PART` of a circuit entry. -/
def ccPart (e : BitVec 64) : Nat := (fld e 1 4).toNat

/-- `EGRESS` of a circuit entry. -/
def ccEgress (e : BitVec 64) : Nat := (fld e 5 7).toNat

/-- `SLOTS` of a circuit entry. -/
def ccSlots (e : BitVec 64) : BitVec 16 := fld e 12 16

/-- `MAX_PAYLOAD` of a circuit entry, in units of 256 B. -/
def ccMax (e : BitVec 64) : Nat := (fld e 28 4).toNat

/-- `SRC` of a circuit entry. -/
def ccSrc (e : BitVec 64) : BitVec 11 := fld e 32 11

/-- `DST` of a circuit entry. -/
def ccDst (e : BitVec 64) : BitVec 11 := fld e 43 11

/-- A circuit entry with its reserved bits zero (R7). -/
def ccClean (e : BitVec 64) : BitVec 64 := e &&& 0x003FFFFFFFFFFFFF#64

/-- Control word of a group entry (Table 07-1). -/
def gValid (c : BitVec 128) : Bool := bit c 0
def gPart (c : BitVec 128) : Nat := (fld c 1 4).toNat
def gOp (c : BitVec 128) : Nat := (fld c 5 3).toNat
def gFmt (c : BitVec 128) : Nat := (fld c 8 4).toNat
def gOut (c : BitVec 128) : Nat := (fld c 12 4).toNat
def gRanks (c : BitVec 128) : Nat := (fld c 16 12).toNat
def gBase (c : BitVec 128) : Nat := (fld c 28 11).toNat
def gStride (c : BitVec 128) : Nat := (fld c 39 11).toNat
def gCap (c : BitVec 128) : Nat := (fld c 50 11).toNat
def gRootDie (c : BitVec 128) : Nat := (fld c 61 2).toNat
def gAlt (c : BitVec 128) : Nat := (fld c 64 5).toNat
def gWindow (c : BitVec 128) : Nat := (fld c 69 4).toNat
def gHomeValid (c : BitVec 128) : Bool := bit c 73
def gHomeBlock (c : BitVec 128) : Nat := (fld c 74 6).toNat
def gRootValid (c : BitVec 128) : Bool := bit c 80
def gRootSet (c : BitVec 128) : Nat := (fld c 81 4).toNat
def gTimeout (c : BitVec 128) : Nat := (fld c 85 20).toNat

/-- Weight of position `p` of the home block (Table 07-2). -/
def Group.weight (g : Group) (p : Nat) : BitVec 32 := fld g.weights (32 * p) 32

/-- Leaf index of the home die of block `b`, when valid (Table 07-2). -/
def Group.home (g : Group) (b : Nat) : Option Nat :=
  let v := fld g.blockHome (8 * b) 8
  if bit v 7 then some (fld v 0 6).toNat else none

/-- Blocks of a group (R258). -/
def gBlocks (c : BitVec 128) : Nat := (gRanks c + 31) / 32

/-- Tray sets of a group (R258). -/
def gSets (c : BitVec 128) : Nat := (gRanks c + 127) / 128

/-- Fields of a sequence descriptor (spec/09 Table 09-1). -/
def sdValid (w : BitVec 128) : Bool := bit w 0
def sdLog2 (w : BitVec 128) : Nat := (fld w 1 4).toNat
def sdBase (w : BitVec 128) : Nat := (fld w 8 18).toNat
def sdBlocks (w : BitVec 128) : Nat := (fld w 26 19).toNat
def sdAge (w : BitVec 128) : Nat := (fld w 48 32).toNat

/-- A sequence descriptor with its reserved bits zero (R7). -/
def sdClean (w : BitVec 128) : BitVec 128 :=
  0#48 ++ fld w 48 32 ++ 0#3 ++ fld w 26 19 ++ fld w 8 18 ++ 0#3 ++ fld w 1 4 ++ fld w 0 1

/-! ### Collective words -/

/-- The fields of a blend head (Table 07-4). -/
structure BlendHead where
  kind : BitVec 3
  gather : Bool
  last : Bool
  pos : BitVec 11
  offset : BitVec 24 := 0
  pourLen : BitVec 20 := 0
  ovfRanks : BitVec 12 := 0
  ovfLow : BitVec 11 := 0
  abort : BitVec 4 := 0
  flags : Byte := 0
deriving DecidableEq, Repr

/-- The 32 bytes of a blend head. -/
def BlendHead.word (b : BlendHead) : BitVec 256 :=
  0#152 ++ b.flags ++ 0#1 ++ b.abort ++ b.ovfLow ++ b.ovfRanks ++ b.pourLen ++ b.offset ++ 0#5 ++ b.pos ++ 0#3 ++ b1 b.last ++
    b1 b.gather ++ b.kind

/-- A blend head from its bits, bit 7 of `NUM_FLAGS` ignored as reserved (R7, spec/08 R318). -/
def BlendHead.ofWord (w : BitVec 256) : BlendHead :=
  { kind := fld w 0 3, gather := bit w 3, last := bit w 4, pos := fld w 8 11, offset := fld w 24 24, pourLen := fld w 48 20,
    ovfRanks := fld w 68 12, ovfLow := fld w 80 11, abort := fld w 91 4, flags := fld w 96 8 &&& 0x7F }

/-- A completion word (Table 07-7). -/
def completionWord (pour : BitVec 20) (group : BitVec 12) (status : BitVec 4) (gather : Bool) (pourLen ownDrop : BitVec 20)
    (ovfRanks : BitVec 12) (ovfLow : BitVec 11) (flags : Byte) : BitVec 128 :=
  0#8 ++ flags ++ 0#5 ++ ovfLow ++ ovfRanks ++ ownDrop ++ 0#4 ++ pourLen ++ 0#3 ++ b1 gather ++ status ++ group ++ pour

end Sys2Proof.Machine
end

