-- ==== Sys2Proof/Machine/Flags.lean ====
section
/-! DEFINITION. The arithmetic of the blend array and its numeric flags (spec/08 R299 to R318): element formats, the value of each
position, the combine, and the rounding to the output format. -/

namespace Sys2Proof.Machine

/-! ### Flags (Table 08-6) -/

def fNanIn : Byte := 0x01
def fInfIn : Byte := 0x02
def fInvalid : Byte := 0x04
def fOverflow : Byte := 0x08
def fUnderflow : Byte := 0x10
def fInexactOut : Byte := 0x20
def fIntWrap : Byte := 0x40

/-- A flag when a condition holds. -/
def flagIf (c : Bool) (f : Byte) : Byte := if c then f else 0

/-- A value with the flags that its operations raised. -/
abbrev Flagged := BitVec 32 × Byte

/-! ### Floating point formats -/

/-- A binary format: exponent bits, fraction bits and bias (Table 08-2). -/
structure Format where
  eb : Nat
  mb : Nat
  bias : Nat
deriving DecidableEq, Repr

def fp32Fmt : Format := ⟨8, 23, 127⟩
def bf16Fmt : Format := ⟨8, 7, 127⟩
def fp16Fmt : Format := ⟨5, 10, 15⟩
def e4m3Fmt : Format := ⟨4, 3, 7⟩
def e5m2Fmt : Format := ⟨5, 2, 15⟩

/-- An exact value: a finite one is m x 2^e, with its sign kept for zero. -/
inductive Fp where
  | nan
  | inf (neg : Bool)
  | fin (neg : Bool) (m : Nat) (e : Int)
deriving DecidableEq, Repr

/-- The value of an encoding with infinities and NaNs in the last exponent (Table 08-2). -/
def Format.unpack (f : Format) (w : Nat) : Fp :=
  let frac := w % 2 ^ f.mb
  let ex := w / 2 ^ f.mb % 2 ^ f.eb
  let neg := w / 2 ^ (f.mb + f.eb) % 2 == 1
  if ex = 2 ^ f.eb - 1 then (if frac = 0 then .inf neg else .nan)
  else if ex = 0 then .fin neg frac (1 - (f.bias : Int) - f.mb)
  else .fin neg (2 ^ f.mb + frac) ((ex : Int) - f.bias - f.mb)

/-- The value of an fp8 E4M3 byte: no infinity, NaN only 0x7F and 0xFF (Table 08-2). -/
def unpackE4m3 (w : Nat) : Fp :=
  if w % 128 = 127 then .nan
  else
    let frac := w % 8
    let ex := w / 8 % 16
    let neg := w / 128 % 2 == 1
    if ex = 0 then .fin neg frac (-9) else .fin neg (8 + frac) ((ex : Int) - 10)

/-- Round n x 2^-k to the nearest integer, ties to even: the integer, and whether it is exact. -/
def shiftRound (n k : Nat) : Nat × Bool :=
  let d := 2 ^ k
  let q := n / d
  let r := n % d
  if r = 0 then (q, true)
  else if 2 * r < d then (q, false)
  else if d < 2 * r then (q + 1, false)
  else (q + q % 2, false)

/-- A result rounded to a format: the encoding without its sign, and what the rounding did. -/
structure Rounded where
  bits : Nat
  inexact : Bool
  overflow : Bool
  underflow : Bool
deriving DecidableEq, Repr

/-- Round m x 2^e to nearest, ties to even; beyond the largest finite value to infinity, below the smallest normal to a
subnormal or zero (R315). -/
def Format.round (f : Format) (m : Nat) (e : Int) : Rounded :=
  if m = 0 then ⟨0, false, false, false⟩
  else
    let low : Int := 1 - (f.bias : Int) - f.mb
    let t : Int := max ((Nat.log2 m : Int) + e - f.mb) low
    let r := if t ≤ e then (m * 2 ^ (e - t).toNat, true) else shiftRound m (t - e).toNat
    let bits := r.1 + (t - low).toNat * 2 ^ f.mb
    let inf := (2 ^ f.eb - 1) * 2 ^ f.mb
    if inf ≤ bits then ⟨inf, true, true, false⟩ else ⟨bits, !r.2, false, !r.2 && decide (bits < 2 ^ f.mb)⟩

/-- The sign bit of a format over an encoding. -/
def Format.signed (f : Format) (neg : Bool) (bits : Nat) : Nat := if neg then 2 ^ (f.eb + f.mb) + bits else bits

/-- Canonical NaN of a format (R317). -/
def Format.qnan (f : Format) : Nat := (2 ^ f.eb - 1) * 2 ^ f.mb + 2 ^ (f.mb - 1)

/-- An exact value in a format, with the OVERFLOW and UNDERFLOW flags of its rounding, and whether it was inexact. -/
def Format.pack (f : Format) (v : Fp) : Nat × Byte × Bool :=
  match v with
  | .nan => (f.qnan, 0, false)
  | .inf neg => (f.signed neg ((2 ^ f.eb - 1) * 2 ^ f.mb), 0, false)
  | .fin neg m e =>
    let r := f.round m e
    (f.signed neg r.bits, flagIf r.overflow fOverflow ||| flagIf r.underflow fUnderflow, r.inexact)

/-- An exact value as fp32. -/
def toFp32 (v : Fp) : Flagged :=
  let r := fp32Fmt.pack v
  (BitVec.ofNat 32 r.1, r.2.1)

/-! ### Operations (Table 08-5) -/

/-- An exact integer multiple of 2^e; `negZero` is the sign of a zero. -/
def Fp.ofInt (i : Int) (e : Int) (negZero : Bool) : Fp :=
  if i = 0 then .fin negZero 0 e else .fin (decide (i < 0)) i.natAbs e

/-- A finite value as a signed integer over 2^e. -/
def scaled (neg : Bool) (m : Nat) (e low : Int) : Int :=
  let n : Int := ((m * 2 ^ (e - low).toNat : Nat) : Int)
  if neg then -n else n

/-- fp32 addition (R315, R316). -/
def fpAdd (a b : BitVec 32) : Flagged :=
  match fp32Fmt.unpack a.toNat, fp32Fmt.unpack b.toNat with
  | .nan, _ | _, .nan => toFp32 .nan
  | .inf s, .inf t => if s == t then toFp32 (.inf s) else ((toFp32 .nan).1, fInvalid)
  | .inf s, .fin .. => toFp32 (.inf s)
  | .fin .., .inf t => toFp32 (.inf t)
  | .fin s m e, .fin t n g =>
    let low := min e g
    toFp32 (Fp.ofInt (scaled s m e low + scaled t n g low) low (m = 0 && n = 0 && s && t))

/-- fp32 product (R308, R316). -/
def fpMul (a b : BitVec 32) : Flagged :=
  match fp32Fmt.unpack a.toNat, fp32Fmt.unpack b.toNat with
  | .nan, _ | _, .nan => toFp32 .nan
  | .inf s, .inf t => toFp32 (.inf (s != t))
  | .inf s, .fin t n _ => if n = 0 then ((toFp32 .nan).1, fInvalid) else toFp32 (.inf (s != t))
  | .fin s m _, .inf t => if m = 0 then ((toFp32 .nan).1, fInvalid) else toFp32 (.inf (s != t))
  | .fin s m e, .fin t n g => toFp32 (.fin (s != t) (m * n) (e + g))

/-- A NaN encoding of fp32. -/
def isNan32 (w : BitVec 32) : Bool := fp32Fmt.unpack w.toNat == .nan

/-- Place of an fp32 value in the order of Table 08-5, -0.0 below +0.0. -/
def fpOrder (w : BitVec 32) : Int :=
  let m : Int := (w.toNat % 2 ^ 31 : Nat)
  if w.msb then -m - 1 else m

/-- The lesser, or greater, of two fp32 values (R316). -/
def fpPick (greater : Bool) (a b : BitVec 32) : Flagged :=
  if isNan32 a || isNan32 b then toFp32 .nan
  else if (decide (fpOrder a ≤ fpOrder b)) != greater then (a, 0) else (b, 0)

/-- The lesser, or greater, of two int32 values. -/
def intPick (greater : Bool) (a b : BitVec 32) : Flagged :=
  if (decide (a.toInt ≤ b.toInt)) != greater then (a, 0) else (b, 0)

/-- int32 addition, modulo 2^32 (R316). -/
def intAdd (a b : BitVec 32) : Flagged :=
  (a + b, flagIf ((a + b).toInt != a.toInt + b.toInt) fIntWrap)

/-- The operation of a group on two values (R312, Table 08-1). -/
def blendOp (op fmt : Nat) (a b : BitVec 32) : Flagged :=
  match op with
  | 1 => if fmt = 5 then intPick false a b else fpPick false a b
  | 2 => if fmt = 5 then intPick true a b else fpPick true a b
  | 3 => intAdd a b
  | _ => fpAdd a b

/-! ### The combine (R312) -/

/-- One round: each pair of neighbours combined, an odd last value kept. -/
def pairUp (op fmt : Nat) : List Flagged → List Flagged
  | a :: b :: r =>
    let c := blendOp op fmt a.1 b.1
    (c.1, a.2 ||| b.2 ||| c.2) :: pairUp op fmt r
  | l => l

/-- Rounds until one value is left; `n` bounds their number. -/
def rounds (op fmt : Nat) : Nat → List Flagged → Flagged
  | 0, l => l.headD (0, 0)
  | _ + 1, [a] => a
  | n + 1, l => rounds op fmt n (pairUp op fmt l)

/-- The combine of positions 0 to n - 1: absent positions take no part (R300, R312). -/
def combine (op fmt : Nat) (l : List Flagged) : Flagged := rounds op fmt 12 l

/-! ### The value of each position (R304 to R309) -/

/-- Bytes of an element in a format; 1 for the fp8 formats. -/
def elemSize (fmt : Nat) : Nat := if fmt = 0 || fmt = 1 then 2 else if fmt = 2 || fmt = 5 then 4 else 1

/-- The format is block-scaled fp8. -/
def isFp8 (fmt : Nat) : Bool := fmt == 3 || fmt == 4

/-- Elements of a contribution of `c` bytes (R307). -/
def elemCount (fmt c : Nat) : Nat :=
  if isFp8 fmt then 1024 * (c / 1056) + (c % 1056 - 32) else c / elemSize fmt

/-- The bytes, as a number, of element `i` of a contribution. -/
def elemBits (fmt : Nat) (bs : List Byte) (i : Nat) : Nat :=
  if isFp8 fmt then (bs.getD (1056 * (i / 1024) + 32 + i % 1024) 0).toNat
  else leNat ((bs.drop (elemSize fmt * i)).take (elemSize fmt))

/-- Scale byte of element `i` of a block-scaled contribution (Table 08-3). -/
def scaleOf (bs : List Byte) (i : Nat) : Nat := (bs.getD (1056 * (i / 1024) + i % 1024 / 32) 0).toNat

/-- Exact value of an element. -/
def elemValue (fmt w : Nat) : Fp :=
  match fmt with
  | 0 => bf16Fmt.unpack w
  | 1 => fp16Fmt.unpack w
  | 3 => unpackE4m3 w
  | 4 => e5m2Fmt.unpack w
  | _ => fp32Fmt.unpack w

/-- Flags of a contributed value: NaN or infinite (Table 08-6). -/
def inFlags : Fp → Byte
  | .nan => fNanIn
  | .inf _ => fInfIn
  | .fin .. => 0

/-- A block scale applied to a value (R308, R305). -/
def Fp.scale (v : Fp) (s : Nat) : Fp :=
  if s = 255 then .nan
  else match v with
    | .fin neg m e => .fin neg m (e + s - 127)
    | w => w

/-- `v` of a contributed element: decoded, scaled and, for WSUM, weighted (R308). -/
def posValue (op fmt : Nat) (weight : BitVec 32) (bs : List Byte) (i : Nat) : Flagged :=
  let w := elemBits fmt bs i
  if fmt = 5 then (BitVec.ofNat 32 w, 0)
  else
    let v := elemValue fmt w
    let scaled := if isFp8 fmt then v.scale (scaleOf bs i) else v
    let r := toFp32 scaled
    let fl := inFlags v ||| (match scaled with | .nan => fNanIn | _ => 0) ||| r.2
    if op = 4 then
      let p := fpMul r.1 weight
      (p.1, fl ||| p.2 ||| inFlags (fp32Fmt.unpack weight.toNat))
    else (r.1, fl)

/-- Padding value (Table 08-4). -/
def padValue (op fmt : Nat) : BitVec 32 :=
  match op with
  | 1 => if fmt = 5 then 0x7FFFFFFF else 0x7F800000
  | 2 => if fmt = 5 then 0x80000000 else 0xFF800000
  | 3 => 0
  | _ => 0x80000000

/-- `v` of position `p` for element `i`: its contribution's element, or padding (R308, R309). -/
def valueAt (op fmt : Nat) (weight : BitVec 32) (c : Option (List Byte)) (i : Nat) : Flagged :=
  match c with
  | some bs => if i < elemCount fmt bs.length then posValue op fmt weight bs i else (padValue op fmt, 0)
  | none => (padValue op fmt, 0)

/-- Flags of a list of values, together. -/
def allFlags (l : List Flagged) : Byte := l.foldl (fun f v => f ||| v.2) 0

/-- Values as bytes, 4 B each. -/
def valueBytes (l : List Flagged) : List Byte := l.flatMap fun v => le 4 v.1.toNat

/-- Level 1: the block partial over 32 positions, each element combined in position order (R313). -/
def level1 (op fmt : Nat) (weights : Nat → BitVec 32) (cs : Nat → Option (List Byte)) (n : Nat) : List Flagged :=
  (List.range n).map fun i => combine op fmt ((List.range 32).map fun p => valueAt op fmt (weights p) (cs p) i)

/-- Levels 2 and 3: partials of 4 B values combined in order (R313, R314). -/
def combineParts (op fmt : Nat) (parts : List (List Byte)) (n : Nat) : List Flagged :=
  (List.range n).map fun i =>
    combine op fmt (parts.map fun bs => (BitVec.ofNat 32 (leNat ((bs.drop (4 * i)).take 4)), (0 : Byte)))

/-- One value rounded to `OUT_FMT`: its bytes and flags (R315, R317; INEXACT_OUT of Table 08-6). -/
def outValue (out : Nat) (w : BitVec 32) : List Byte × Byte :=
  let conv (f : Format) (n : Nat) : List Byte × Byte :=
    let r := f.pack (fp32Fmt.unpack w.toNat)
    (le n r.1, r.2.1 ||| flagIf r.2.2 fInexactOut)
  match out with
  | 0 => conv bf16Fmt 2
  | 1 => conv fp16Fmt 2
  | 5 => (le 4 w.toNat, 0)
  | _ => conv fp32Fmt 4

/-- A list of values in `OUT_FMT`, with their flags. -/
def outBytes (out : Nat) (l : List Flagged) : List Byte × Byte :=
  let one := l.map fun v => outValue out v.1
  (one.flatMap fun o => o.1, one.foldl (fun f o => f ||| o.2) (allFlags l))

/-- Length of L bytes converted element for element (R276). -/
def outLen (fmt out L : Nat) : Nat := elemCount fmt L * elemSize out

end Sys2Proof.Machine
end

