-- ==== Sys2Proof/Machine/Buffer.lean ====
section
/-! DEFINITION. Ports and the packet buffer of a die: rates, skid allowance, quotas, free room and reservations
(spec/03 R104 to R107, spec/04 Table 04-1, spec/06 R232 to R239), partition and route version state as a tick sees it, and
zeroing (spec/10 R364 to R367). -/

namespace Sys2Proof.Machine

/-- Quotient rounded up. -/
def ceilDiv (a b : Nat) : Nat := (a + b - 1) / b

/-! ### Keys of flows -/

/-- Key of a flow of a partition. -/
def flowKey (part : BitVec 4) (src dst : BitVec 11) : Nat := part.toNat * 2 ^ 22 + src.toNat * 2 ^ 11 + dst.toNat

/-- Key of a flow of a partition on one virtual channel. -/
def flowKeyVc (vc : BitVec 3) (part : BitVec 4) (src dst : BitVec 11) : Nat := vc.toNat * 2 ^ 26 + flowKey part src dst

/-- Partition of a flow key. -/
def keyPart (k : Nat) : Nat := k / 2 ^ 22 % 16

/-! ### Ports -/

/-- The port carries packets (Table 04-4). -/
def Port.carries (q : Port) : Bool := q.state == .activePw || q.state == .active

/-- The port is in service: it carries packets, or retry holds them while it switches. -/
def Port.inService (q : Port) : Bool := q.carries || q.state == .switching

/-- The port is marked as leaving, by its caddy's lever or by `link.config` (R163, R439). -/
def Port.isLeaving (q : Port) : Bool := q.leaving || q.leaveTo.isSome

/-- R181: the link is ACTIVE or ACTIVE_PW and not marked as leaving. It stays so through a width or rate switch, which loses no packet
and re-pins no flow (R145, R186, Table 05-9; DEDUCED, log entry 25). -/
def Port.usable (q : Port) : Bool := q.inService && !q.isLeaving

/-- Ports of a die that R181 admits. -/
def Die.usableNow (x : Die) : BitVec 72 :=
  x.ports.foldl (fun b e => if e.2.usable then setBit b e.1 true else b) 0

/-- Width of a port in lanes. -/
def Port.width (q : Port) : Nat := popCount q.lanes

/-- The current width of a port for queues and thresholds: that of a switch from its `SWITCH_TICK` on (R183, R242). -/
def Port.nowWidth (q : Port) : Nat :=
  match q.sw with
  | some w => if q.state == .switching then popCount w.lanes else q.width
  | none => q.width

/-- Data blocks per 4 ticks (Table 04-1) at a width and rate. -/
def blocks4 (ns width : Nat) (fullRate : Bool) : Nat :=
  if fullRate then 25 * ns * width / 8
  else if width = 0 then 0 else if ns = 200 then 224 else if ns = 800 then 1184 else 544

/-- Largest circuit payload of a slot in units of 256 B (Table 02-5); 0 in ACTIVE_PW (R556). -/
def slotUnits (ns : Nat) (q : Port) : Nat :=
  if q.fullRate then
    match q.width with
    | 4 => if ns = 200 then 4 else 8
    | 2 => if ns = 200 then 2 else if ns = 400 then 4 else 8
    | 1 => if ns = 200 then 1 else if ns = 400 then 2 else 4
    | _ => 0
  else 0

/-- Skid time T_p in units of 1/16 ns (R232). -/
def Port.skidTime (p : Nat) (q : Port) : Nat := 2 * q.delay.toNat + 16 * (if 64 ≤ p && decide (p < 70) then 154 else 214)

/-- Skid allowance in cells and descriptors at a rate (R232). -/
def skidAt (ns p : Nat) (q : Port) (width : Nat) (fullRate : Bool) : Nat :=
  ceilDiv (blocks4 ns width fullRate * 32 * q.skidTime p + 4128 * (64 * ns)) (32 * (64 * ns))

/-- S_p of a port; during a switch the larger of the old and the new (R233). -/
def Die.skid (x : Die) (p : Nat) : Nat :=
  let q := x.port p
  let cur := skidAt x.ns p q q.width q.fullRate
  let new := match q.sw with | some w => skidAt x.ns p q (popCount w.lanes) (!w.slow) | none => 0
  let old := match q.oldSkid with | some (s, t) => if later t x.now then s else 0 | none => 0
  max cur (max new old)

/-- Time in 1/16 ns from a moment of an earlier tick to one of this tick. -/
def Die.since (x : Die) (tick : Tick) (at_ now_ : Nat) : Nat := (x.now - tick).toNat * (16 * x.ns) + now_ - at_

/-- XOFF was sent on a port less than T_p ago (R232, R239). -/
def Die.inSkid (x : Die) (p : Nat) (o : XoffSent) : Bool := decide (x.since o.tick o.at_ x.clock < (x.port p).skidTime p)

/-- A tick was less than `n` ticks ago. -/
def within (now t : Tick) (n : Nat) : Bool := decide ((now - t).toNat < n)

/-- Ports 0 to 69 in service. -/
def Die.servicePorts (x : Die) : List Nat := (x.ports.filter fun e => decide (e.1 < 70) && e.2.inService).map (·.1)

/-! ### Route versions and partitions -/

/-- State of version `v` (Table 05-5). -/
def Ver.st (r : Ver) (v : Bool) : VerState := if v then r.v1 else r.v0

/-- The record with the state of version `v` set. -/
def Ver.setSt (r : Ver) (v : Bool) (t : VerState) : Ver := if v then { r with v1 := t } else { r with v0 := t }

/-- At the boundary of the flip tick the SEALED version becomes ACTIVE and the ACTIVE version LINGER (R210), for the `LINGER_TICKS` at
the flip's acceptance (R448). -/
def Ver.flipAt (r : Ver) (now : Tick) : Ver :=
  match r.flip with
  | some f =>
    if reached now f && r.st (!r.sel) == .sealed then
      { ((r.setSt (!r.sel) .active).setSt r.sel .linger) with
        sel := !r.sel, flip := none, retire := some (f + r.flipLinger.setWidth 48) }
    else r
  | none => r

/-- At its retire tick the LINGER version becomes RETIRED (R210). -/
def Ver.retireAt (r : Ver) (now : Tick) : Ver :=
  match r.retire with
  | some t => if reached now t then { (r.setSt (!r.sel) .retired) with retire := none } else r
  | none => r

/-- Version states as lookups of tick `now` see them: a flip or retire that has fallen due has taken effect (R210, R636). -/
def Ver.settle (r : Ver) (now : Tick) : Ver := (r.flipAt now).retireAt now

/-- Versions of partition `p` in tick `now`. -/
def Tables.verAt (t : Tables) (p : Nat) (now : Tick) : Ver := (t.ver p).settle now

/-- The route entry by which a packet of `EPOCH` `e` is routed, and whether it counts in `route.epoch.late` (R211). -/
def Tables.select (t : Tables) (p : Nat) (e : Bool) (dst : Nat) (now : Tick) : BitVec 64 × Bool :=
  let r := t.verAt p now
  match r.st e with
  | .retired | .staging => (t.route r.sel dst, true)
  | _ => (t.route e dst, false)

/-- The virtual channels that the pre-warm hold quiesces (R549). -/
def preWarmHeld : BitVec 8 := 0xEE

/-- Bit v: VC v is drained for a partition, the pre-warm hold included (R214, R549, R550). -/
def Die.drainedMask (x : Die) (p : Nat) : BitVec 8 :=
  let d := (List.range 8).foldl (fun b v => if Map.lookD x.drained (8 * p + v) false then setBit b v true else b) (0#8)
  if x.full then d else d ||| preWarmHeld

/-- Every virtual channel of a mask is DRAINED (R215). -/
def Die.isDrained (x : Die) (p : Nat) (mask : BitVec 8) : Bool := x.drainedMask p &&& mask == mask

/-- Alias in force of a logical rank (R563), from tables `t` with the ACTIVE version of tick `now`. -/
def Tables.aliasOf (t : Tables) (p r : Nat) (now : Tick) : Option (BitVec 11) :=
  let e := Map.lookD t.ranks (2048 * p + r) 0
  if bit e 15 then some (fld e 0 11)
  else
    let v := (t.verAt p now).sel
    let re := t.route v r
    let taken := t.ranks.any fun k => decide (k.1 / 2048 = p) && decide (k.1 % 2048 ≠ r) && bit k.2 15 && (fld k.2 0 11).toNat == r
    if rtKind re ≠ 0 && rtPart re == p && !taken then some (BitVec.ofNat 11 r) else none

/-! ### Segments and quotas -/

/-- Segments that the partition holds, whether or not they are zeroed (R238). -/
def Tables.segsHeld (t : Tables) (p : Nat) : List Nat :=
  (t.segs.filter fun e => e.2.owner == some (BitVec.ofNat 4 p) && !e.2.returning).map (·.1)

/-- Segments that count in the quota (R106, R361, R367). -/
def Tables.segsQuota (t : Tables) (p : Nat) : List Nat :=
  (t.segs.filter fun e => e.2.owner == some (BitVec.ofNat 4 p) && e.2.inQuota && !e.2.returning).map (·.1)

/-- Returned segments that are not yet free (R361). -/
def Tables.segsReturned (t : Tables) (p : Nat) : List Nat :=
  (t.segs.filter fun e => e.2.owner == some (BitVec.ofNat 4 p) && e.2.returning).map (·.1)

/-- Share of a virtual channel in 32nds. -/
def Part.share (q : Part) (vc : Nat) : Nat := (fld q.shares (8 * vc) 8).toNat

/-- Cell and descriptor quota (R106). -/
def Tables.quota (t : Tables) (p vc : Nat) : Nat := (t.segsQuota p).length * (t.part p).share vc * 256

/-- Largest S_p among the ports in service. -/
def Die.maxSkid (x : Die) : Nat := x.servicePorts.foldl (fun m p => max m (x.skid p)) 0

/-- R238 for `n` segments and a set of shares: every channel of non-zero share has its minimum. -/
def Die.quotaOk (x : Die) (n : Nat) (shares : BitVec 64) : Bool :=
  x.servicePorts.isEmpty ||
    (List.range 8).all fun v =>
      let k := (fld shares (8 * v) 8).toNat
      k == 0 || decide (x.maxSkid + 387 ≤ n * k * 256)

/-- Virtual channel of a place's inputs: VC2 at delivery, VC1 elsewhere. -/
def placeVc : Place → Nat
  | .delivery => 2
  | _ => 1

/-- Cells and descriptors that a partition and virtual channel use in its segments (R104, R105). -/
def Die.usage (x : Die) (p vc : Nat) : Nat × Nat :=
  let a := x.held.foldl (fun (u : Nat × Nat) h =>
    if h.place.isNone && h.seg < 47 && h.hdr.part.toNat == p && h.hdr.vc.toNat == vc then
      (u.1 + cellsOf h.hdr.len.toNat, u.2 + 1) else u) (0, 0)
  x.pours.foldl (fun u q =>
    if q.part.toNat == p && placeVc q.place == vc then
      q.waits.foldl (fun u w => (u.1 + cellsOf w.len, u.2 + 1)) u else u) a

/-- Cells that a packet has in a segment: all of them in its own, unless they are spread over several. -/
def cellsIn (g seg : Nat) (cells : List (Nat × Nat)) (len : Nat) : Nat :=
  if cells.isEmpty then (if seg = g then cellsOf len else 0)
  else cells.foldl (fun n e => if e.1 = g then n + e.2 else n) 0

/-- Cells and descriptors used in one segment. -/
def Die.segUsage (x : Die) (g : Nat) : Nat × Nat :=
  let a := x.held.foldl (fun (u : Nat × Nat) h =>
    (u.1 + cellsIn g h.seg h.cells h.hdr.len.toNat, if h.seg = g then u.2 + 1 else u.2)) (0, 0)
  x.pours.foldl (fun u q =>
    q.waits.foldl (fun u w => (u.1 + cellsIn g w.seg w.cells w.len, if w.seg = g then u.2 + 1 else u.2)) u) a

/-- Reservation of one port for a state key (8 x PART + VC, 128 for the pool): its term in H. -/
def Die.resOf (x : Die) (key p : Nat) : Nat :=
  let q := x.port p
  let holds := if key = 128 then q.rxPool else bit q.rxXon key
  if holds then x.skid p
  else match Map.look q.xoffs key with
    | some o => if x.inSkid p o then x.skid p - o.arrived else 0
    | none => 0

/-- H: the sum of the reservations over the ingress ports. -/
def Die.resSum (x : Die) (key : Nat) : Nat :=
  (x.ports.filter fun e => decide (e.1 < 71)).foldl (fun n e => n + x.resOf key e.1) 0

/-- Free cells and free descriptors of the partition's segments that no packet holds. -/
def Die.physFree (x : Die) (p : Nat) : Int × Int :=
  let segs := x.view.segsQuota p
  let u := segs.foldl (fun (a : Nat × Nat) g => let w := x.segUsage g; (a.1 + w.1, a.2 + w.2)) (0, 0)
  (8192 * (segs.length : Int) - u.1, 8192 * (segs.length : Int) - u.2)

/-- Free cells and free descriptors of a virtual channel of a partition: of its quotas, and no more than no packet holds and no
reservation of another channel covers (R106, spec/06 Reservation and grant). -/
def Die.freeRooms (x : Die) (p vc : Nat) : Int × Int :=
  let q : Int := x.view.quota p vc
  let u := x.usage p vc
  let others : Int := (List.range 8).foldl (fun n v => if v = vc then n else n + x.resSum (8 * p + v)) 0
  let f := x.physFree p
  (min (q - u.1) (f.1 - others), min (q - u.2) (f.2 - others))

/-- Free cells and free descriptors of a state key; the pool's are those of segment 47 (R105). -/
def Die.roomsOf (x : Die) (key : Nat) : Int × Int :=
  if key = 128 then
    let u := x.segUsage 47
    (8192 - (u.1 : Int), 8192 - (u.2 : Int))
  else x.freeRooms (key / 8) (key % 8)

/-- F of a state key: the lesser of its free cells and its free descriptors (spec/06 Reservation and grant). -/
def Die.roomOf (x : Die) (key : Nat) : Int := min (x.roomsOf key).1 (x.roomsOf key).2

/-- There is room in both quotas for a packet (R107). -/
def Die.hasRoom (x : Die) (key len : Nat) : Bool :=
  (cellsOf len == 0 || decide ((cellsOf len : Int) ≤ (x.roomsOf key).1)) && decide (1 ≤ (x.roomsOf key).2)

/-- A segment has room for a packet. -/
def Die.segRoom (x : Die) (g len : Nat) : Bool :=
  let u := x.segUsage g
  decide (u.1 + cellsOf len ≤ 8192) && decide (u.2 + 1 ≤ 8192)

/-- Cells for a packet, taken from segments in order as far as each has them. -/
def Die.takeCells (x : Die) : List Nat → Nat → List (Nat × Nat)
  | [], _ => []
  | g :: r, n =>
    let k := min n (8192 - (x.segUsage g).1)
    if k = 0 then Die.takeCells x r n else (g, k) :: Die.takeCells x r (n - k)

/-- Room for a packet spread over several segments. -/
def Die.spreadSeg (x : Die) (segs : List Nat) (len : Nat) : Option (Nat × List (Nat × Nat)) :=
  let c := x.takeCells segs (cellsOf len)
  match segs.find? fun g => decide ((x.segUsage g).2 + 1 ≤ 8192) with
  | some g => if c.foldl (fun n e => n + e.2) 0 = cellsOf len then some (g, c) else none
  | none => none

/-- Where the buffer puts a packet of a partition: the lowest-numbered segment that has room for it, otherwise several of them (DESIGN
CHOICE: the manual names no order); returned segments only when no other has room, for a packet that an earlier reservation covers
(R361). -/
def Die.pickSeg (x : Die) (p len : Nat) : Option (Nat × List (Nat × Nat)) :=
  let own := x.view.segsQuota p
  let old := x.view.segsReturned p
  match own.find? fun g => x.segRoom g len with
  | some g => some (g, [])
  | none =>
    match x.spreadSeg own len with
    | some r => some r
    | none =>
      match old.find? fun g => x.segRoom g len with
      | some g => some (g, [])
      | none => x.spreadSeg (own ++ old) len

/-- Returned segments that hold nothing, and whose zeroing is over, become free (R361, R455). -/
def Die.freeReturned (x : Die) : Die :=
  let gone := (x.tab.segs.filter fun e => (x.tab.seg e.1).returning && (x.view.seg e.1).returning && x.segUsage e.1 == (0, 0) &&
    !x.segJobs.any fun j => j.item == e.1).map (·.1)
  if gone.isEmpty then x
  else x.modTab fun t =>
    { t with segs := gone.foldl (fun m g => Map.upd m g {} fun q =>
        { q with owner := none, inQuota := false, returning := false }) t.segs }

/-! ### Zeroing -/

/-- Start of the next boundary of a die in ns from tick 0. -/
def Die.boundaryNs (x : Die) : Nat := x.nextTick.toNat * x.ns

/-- First boundary at or after a moment, in ticks. -/
def Die.boundaryAfter (x : Die) (ns : Nat) : Nat := ceilDiv ns x.ns

/-- Queue one request of an engine: it starts at the boundary after its acceptance, or at the first boundary at or after the
engine's earlier work, and takes `each` ns an item (R364, R366). -/
def queueZero (x : Die) (jobs : List ZeroJob) (items : List Nat) (each : Nat) : List ZeroJob :=
  let last := jobs.foldl (fun m j => max m j.endNs) 0
  let start := max x.boundaryNs (x.boundaryAfter last * x.ns)
  jobs ++ (List.range items.length).map fun i => { item := items.getD i 0, endNs := start + (i + 1) * each }

/-- Queue segments for zeroing. -/
def Die.zeroSegs (x : Die) (items : List Nat) : Die := { x with segJobs := queueZero x x.segJobs items 4096 }

/-- Queue pots for zeroing. -/
def Die.zeroPots (x : Die) (items : List Nat) : Die :=
  { x with potJobs := queueZero x x.potJobs items 2048,
           pots := items.foldl (fun m i => Map.upd m i {} fun p => { p with zeroing := true }) x.pots }

/-- Pot `n` of a die. -/
def Die.pot (x : Die) (n : Nat) : Pot := Map.lookD x.pots n {}

/-- Pots assigned to groups of a partition. -/
def Die.potsOf (x : Die) (p : Nat) : List Nat :=
  (x.pots.filter fun e => match e.2.owner with | some (q, _, _) => q.toNat == p | none => false).map (·.1)

/-- Pots assigned to a group of a partition. -/
def Die.groupPots (x : Die) (p g : Nat) : List Nat :=
  (x.pots.filter fun e => match e.2.owner with | some (q, k, _) => q.toNat == p && k.toNat == g | none => false).map (·.1)

end Sys2Proof.Machine
end

