-- ==== Sys2Proof/Machine/Fpsm.lean ====
section
/-! DEFINITION. The Fonel Peripheral Serial Master: how bytes go over lanes, its frames, its selects, and the order of its work
(spec/14 R493 to R514; spec/15 Table 15-2). -/

namespace Sys2Proof.Machine

/-! ### Lanes and phases -/

/-- The transfers that carry a byte over 8, 4 or 2 lanes, the high bits first (R495). -/
def xfersOf (lanes : Nat) (b : Byte) : List Byte :=
  if lanes = 8 then [b]
  else if lanes = 4 then [b >>> 4, b &&& 0x0F]
  else [b >>> 6, (b >>> 4) &&& 3, (b >>> 2) &&& 3, b &&& 3]

/-- The byte that transfers over 8, 4 or 2 lanes carry. -/
def byteOf (lanes : Nat) (l : List Byte) : Byte := l.foldl (fun b x => (b <<< lanes) ||| x) 0

/-- Clock cycles of `n` bytes: one transfer a clock at rate S, two at rate D (R495). -/
def laneCycles (lanes : Nat) (ddr : Bool) (n : Nat) : Nat := if ddr then (n * (8 / lanes) + 1) / 2 else n * (8 / lanes)

/-- A phase in which the FPSM drives bytes; one of length 0 is omitted (R494). -/
def phaseOut (lanes : Nat) (ddr : Bool) (l : List Byte) : List FpsmPin :=
  if l.isEmpty then []
  else [.phase { lanes := lanes, ddr := ddr, drives := true, cycles := laneCycles lanes ddr l.length, xfers := l.flatMap (xfersOf lanes) }]

/-- A data phase that the target drives (R496). -/
def phaseIn (lanes : Nat) (ddr : Bool) (n : Nat) : List FpsmPin :=
  if n = 0 then [] else [.phase { lanes := lanes, ddr := ddr, drives := false, cycles := laneCycles lanes ddr n, xfers := [] }]

/-- A dummy phase: the FPSM drives no lane (R496). -/
def phaseDummy (cycles : Nat) : List FpsmPin :=
  if cycles = 0 then [] else [.phase { lanes := 0, ddr := false, drives := false, cycles := cycles, xfers := [] }]

/-- Clock cycles of what happens at the pins. -/
def pinCycles (l : List FpsmPin) : Nat :=
  l.foldl (fun n p => match p with | .wait c => n + c | .phase q => n + q.cycles | _ => n) 0

/-! ### Profiles (Table 14-3) -/

/-- Clock and delays of a frame (R493, R500). -/
structure Profile where
  div : Nat
  setup : Nat
  hold : Nat
  idle : Nat
deriving DecidableEq, Repr

/-- Profile of a caddy read. -/
def caddyProfile : Profile := { div := 22, setup := 2, hold := 2, idle := 4 }

/-- Byte of the boot descriptor. -/
def Firmware.descByte (w : Firmware) (i : Nat) : Byte := w.desc.getD i 0xFF

/-- Profile of a boot flash frame: the descriptor's once it is applied, and the boot read profile before (R506). -/
def Firmware.profile (w : Firmware) : Profile :=
  if w.descOk then { div := (w.descByte 4).toNat, setup := (w.descByte 9).toNat, hold := (w.descByte 10).toNat,
                     idle := (w.descByte 11).toNat + 1 }
  else { div := 10, setup := 4, hold := 4, idle := 8 }

/-- Time of clock cycles at a divider of 532 MHz, in 1/133 ns (R493). -/
def Profile.time (p : Profile) (cycles : Nat) : Nat := 250 * p.div * cycles

/-- A 2 B flash command: the code, then its bitwise inverse (R503). -/
def flashCode (c : Byte) : List Byte := [c, ~~~c]

/-- A flash address, most significant byte first (R497). -/
def flashAddr (a : Nat) : List Byte := (le 4 a).reverse

/-- Command, address and dummy phases of a read of the boot flash; `confirm` is the value on its first dummy cycle once the descriptor is
applied, and the command goes out where the flash is not in XIP mode (R506, R509, R510). The command code is PRESUMED (log entry 133). -/
def Firmware.readHead (w : Firmware) (confirm : Byte) (addr : Nat) : List FpsmPin :=
  (if w.xip then [] else phaseOut 8 true (flashCode 0xEE)) ++ phaseOut 8 true (flashAddr addr) ++
    (if w.descOk then
        .phase { lanes := 8, ddr := true, drives := true, cycles := 1, xfers := [confirm] } ::
          phaseDummy ((w.descByte 5).toNat - 1)
      else phaseDummy 20)

/-- The boot flash is selected. -/
def Firmware.openBoot (w : Firmware) : List FpsmPin := [.clock w.profile.div, .boot true, .wait w.profile.setup]

/-- The boot flash is deselected. -/
def Firmware.closeBoot (w : Firmware) : List FpsmPin := [.wait w.profile.hold, .boot false, .wait w.profile.idle]

/-- A caddy frame: the code is stable from a cycle before the strobe falls until after it rises (R498, R499, R514). -/
def CaddyFrame.pins (f : CaddyFrame) : List FpsmPin :=
  [.clock caddyProfile.div, .code f.bay, .wait 1, .strobe true, .wait caddyProfile.setup] ++
    phaseOut 4 false [0x0B] ++ phaseOut 4 false (le 2 f.addr.toNat) ++ phaseDummy 4 ++ phaseIn 4 false f.len ++
    [.wait caddyProfile.hold, .strobe false, .wait caddyProfile.idle]

/-! ### Work -/

/-- The FPSM's part of the state replaced. -/
def State.setFpsm (s : State) (p : Fpsm) : State := { s with fw := { s.fw with fpsm := p } }

/-- The line becomes the most recently used; at most 64 lines stay (R507). -/
def useLine (lines : List Nat) (l : Nat) : List Nat :=
  let r := lines.filter (· != l) ++ [l]
  r.drop (r.length - 64)

/-- `PF_DEPTH`, 1 line without a descriptor (R506). -/
def Firmware.depth (w : Firmware) : Nat := if w.descOk then (w.descByte 8).toNat else 1

/-- A read frame of `n` lines from line `l` begins (R508, R509). -/
def State.beginRead (s : State) (l n : Nat) : State :=
  let w := s.fw
  let pins := w.openBoot ++ w.readHead (w.descByte 6) (64 * l) ++ phaseIn 8 true 64
  ({ s with fw := { w with xip := w.descOk,
                           fpsm := { w.fpsm with job := some (.line l (n - 1)), left := w.profile.time (pinCycles pins) } } }).emit (.fpsm pins)

/-- The FPSM starts its next work: a demanded line, then a caddy frame, then a prefetch continuation (R512); while a program or erase
runs it reads no line (R511). -/
def State.startWork (s : State) : State :=
  let p := s.fw.fpsm
  if p.job.isSome then s
  else match (if s.fw.flashBusy then [] else p.want), p.caddies, (if s.fw.flashBusy then [] else p.ahead) with
    | m :: r, _, _ => (s.setFpsm { p with want := r }).beginRead m.2 s.fw.depth
    | [], f :: r, _ =>
      (s.setFpsm { p with caddies := r, code := f.bay, job := some .caddy, left := caddyProfile.time (pinCycles f.pins) }).emit
        (.fpsm f.pins)
    | [], [], a :: r => (s.setFpsm { p with ahead := r }).beginRead a.1 a.2
    | [], [], [] => s

/-- The part of the frame under way ends: the line is in the buffer, and the frame goes on over the next line unless a miss or a caddy
frame waits (R508). -/
def State.endPart (s : State) : State :=
  let w := s.fw
  let p := w.fpsm
  match p.job with
  | none => s
  | some (.line l more) =>
    let w := { w with lines := useLine w.lines l }
    if 0 < more && p.want.isEmpty && p.caddies.isEmpty then
      let pins := phaseIn 8 true 64
      ({ s with fw := { w with fpsm := { p with job := some (.line (l + 1) (more - 1)), left := w.profile.time (pinCycles pins) } } }).emit
        (.fpsm pins)
    else
      let ahead := if 0 < more then p.ahead ++ [(l + 1, more)] else p.ahead
      ({ s with fw := { w with fpsm := { p with job := some .closing, left := w.profile.time (pinCycles w.closeBoot), ahead := ahead } } }).emit
        (.fpsm w.closeBoot)
  | some _ => (s.setFpsm { p with job := none, left := 0 }).startWork

/-- The FPSM works for time `t`. -/
def State.runFpsm : Nat → Nat → State → State
  | 0, _, s => s
  | n + 1, t, s =>
    let p := s.fw.fpsm
    if p.job.isNone then s
    else if p.left ≤ t then State.runFpsm n (t - p.left) s.endPart
    else s.setFpsm { p with left := p.left - t }

/-- A tick's work of the FPSM. -/
def State.tickFpsm (s : State) : State := State.runFpsm (133 * s.ns / 1000 + 2) (133 * s.ns) s

/-- The frame under way ends before anything else is done with the lines; a read frame fills the lines it has still to fill. -/
def State.endFrame : Nat → State → State
  | 0, s => s.setFpsm { s.fw.fpsm with job := none, left := 0 }
  | n + 1, s =>
    match s.fw.fpsm.job with
    | some (.line _ _) => State.endFrame n s.endPart
    | _ => s.setFpsm { s.fw.fpsm with job := none, left := 0 }

/-- A caddy frame waits for the lines (R512). -/
def State.askCaddy (s : State) (f : CaddyFrame) : State :=
  (s.setFpsm { s.fw.fpsm with caddies := s.fw.fpsm.caddies ++ [f] }).startWork

/-- A line is being fetched, or waits to be (R508). -/
def Fpsm.fetching (p : Fpsm) (l : Nat) : Bool :=
  (match p.job with | some (.line k _) => k == l | _ => false) || p.want.any fun m => m.2 == l

/-- A core needs a line: it is in the buffer, on its way, or waits for the lines (R507, R508). -/
def State.demandLine (s : State) (m : Fin 4 × Nat) : State :=
  if s.fw.lines.contains m.2 then { s with fw := { s.fw with lines := useLine s.fw.lines m.2 } }
  else if s.fw.fpsm.fetching m.2 then s
  else (s.setFpsm { s.fw.fpsm with want := s.fw.fpsm.want ++ [m] }).startWork

/-! ### Programming the flash -/

/-- A flash command frame: command, address, dummy and data (Table 14-3). -/
def Firmware.cmdFrame (w : Firmware) (code : Byte) (addr : Option Nat) (dummy : Nat) (data : List Byte) (inBytes : Nat) : List FpsmPin :=
  w.openBoot ++ phaseOut 8 true (flashCode code) ++ (match addr with | some a => phaseOut 8 true (flashAddr a) | none => []) ++
    phaseDummy dummy ++ phaseOut 8 true data ++ phaseIn 8 true inBytes ++ w.closeBoot

/-- The pages of at most 256 B that a write touches (R503). -/
def pagesOf : Nat → Nat → List Byte → List (Nat × List Byte)
  | 0, _, _ => []
  | n + 1, a, l =>
    if l.isEmpty then []
    else
      let k := 256 - a % 256
      (a, l.take k) :: pagesOf n (a + k) (l.drop k)

/-- Frames that program one page: write enable, page program, and a read of the status register (R503; the codes are PRESUMED, log entry
133). -/
def Firmware.pageFrames (w : Firmware) (p : Nat × List Byte) : List FpsmPin :=
  w.cmdFrame 0x06 none 0 [] 0 ++ w.cmdFrame 0x12 (some p.1) 0 p.2 0 ++ w.cmdFrame 0x05 none 8 [] 1

/-- The read frame of one line that ends XIP mode (R510); without a descriptor there is no XIP mode to end. -/
def Firmware.exitFrame (w : Firmware) : List FpsmPin :=
  if w.descOk then w.openBoot ++ w.readHead (w.descByte 7) 0 ++ phaseIn 8 true 64 ++ w.closeBoot else []

/-- The FPSM programs the flash: it first ends XIP mode, and misses wait until the flash is ready (R510, R511). -/
def State.flashOp (s : State) (writes : List (Nat × List Byte)) : State :=
  let s := s.endFrame 33
  let w := s.fw
  let pins := w.exitFrame ++ (writes.flatMap fun p => pagesOf p.2.length p.1 p.2).flatMap { w with xip := false }.pageFrames
  (({ s with fw := { w with flashBusy := true, xip := false, misses := w.misses ++ w.fpsm.want,
                            fpsm := { w.fpsm with want := [] } } }).emit (.fpsm pins)).startWork

/-- A record of the flash with its CRC (R537). -/
def flashRecord (l : List Byte) : List Byte := l ++ le 4 (crc32c l)

/-- `CABLED` of a die: all ones when the tray leaves the factory (R538). -/
def State.cabled (s : State) (d : DieId) : BitVec 64 := Map.lookD s.boot.cabled d.val (BitVec.allOnes 64)

/-- The bank select record. -/
def State.bankRecord (s : State) : Nat × List Byte :=
  (0x1000, flashRecord [if s.fw.bootBank then 1 else 0, match s.fw.armed with | some b => (if b then 1 else 0) | none => 0xFF, 0, 0])

/-- The port map record. -/
def State.mapRecord (s : State) : Nat × List Byte := (0x2000, flashRecord (allDieIds.flatMap fun d => le 8 (s.cabled d).toNat))

/-- The key store; a slot that holds no key keeps the bytes of erased flash. -/
def State.keyRecord (s : State) : Nat × List Byte :=
  (0x3000, flashRecord ([0, 1, 2, 3].flatMap fun k =>
    match Map.look s.tok.store k with
    | some p => le 97 p.toNat ++ [0, 0, 0]
    | none => List.replicate 100 0xFF))

/-- The pending record of a key program (R371). -/
def pendRecord (k : Fin 4) (h : BitVec 384) : Nat × List Byte :=
  (0x3800, flashRecord ([BitVec.ofNat 8 k.val, 0, 0, 0] ++ le 48 h.toNat))

/-- An identity record. -/
def IdRec.record (r : IdRec) : Nat × List Byte :=
  (0x10000 + 0x1000 * r.index, flashRecord [0x53, 0x48, 0x49, 0x44, BitVec.ofNat 8 r.index, if r.spine then 1 else 0, r.rack, r.slot, 0, 0, 0, 0])

end Sys2Proof.Machine
end

