-- ==== Sys2Proof/Machine/FuseOps.lean ====
section
/-! DEFINITION. The fuse array, the audit log and fuse operations (spec/10 R369 to R386, spec/13 Table 13-5). -/

namespace Sys2Proof.Machine

/-- 1 bits of the fuse field [lo + n - 1 : lo]. -/
def State.fuseOnes (s : State) (lo n : Nat) : Nat := ((List.range n).filter fun i => s.fuseBit (lo + i)).length

/-- Lowest fuse bit of the field that is 0. -/
def State.fuseNext (s : State) (lo n : Nat) : Option Nat := ((List.range n).map (lo + ·)).find? fun i => !s.fuseBit i

/-- The firmware floor (R379). -/
def State.floor (s : State) : Nat := s.fuseOnes 1632 128

/-- 1 bits of `ID_REWRITE` (R380). -/
def State.idIndex (s : State) : Nat := s.fuseOnes 1760 16

/-- The FC4 is debug-locked (R381). -/
def State.debugLocked (s : State) : Bool := decide (s.fuseOnes 1780 3 < s.fuseOnes 1776 4)

/-- `KEY_HASH` of a slot. -/
def State.keyHash (s : State) (k : Nat) : BitVec 384 := s.fuse.bits.extractLsb' (64 + 392 * k) 384

/-- SHA-384 of a public key in the order of `KEY_HASH` (Table 13-5: hash byte i in bits [8i+7:8i]). -/
def keyHashOf (k : PubKey) : BitVec 384 := BitVec.ofNat 384 (leNat (sha384 (le 97 k.toNat)))

/-- `TRAY_SERIAL`. -/
def State.serial (s : State) : BitVec 48 := s.fuse.bits.extractLsb' 0 48

/-- Bytes 0 to 59 of an audit record (Table 10-8). -/
def AuditRec.body (r : AuditRec) : List Byte :=
  le 4 r.seq.toNat ++ le 8 r.tick.toNat ++ [r.kind, r.setting] ++ le 2 r.bit.toNat ++ [r.cred, r.epoch] ++ padTo 14 r.detail ++
    le 16 r.chain.toNat ++ List.replicate 12 0#8

/-- The 64 bytes of an audit record. -/
def AuditRec.bytes (r : AuditRec) : List Byte := r.body ++ le 4 r.crc.toNat

/-- `CHAIN` after a record: the first 16 B of its SHA-384. -/
def chainAfter (r : AuditRec) : BitVec 128 := BitVec.ofNat 128 (leNat ((sha384 r.bytes).take 16))

/-- Append a record to the audit log (R371, R383). -/
def State.audit (s : State) (kind : BitVec 8) (u : FuseUse) (cred epoch : Byte) : State :=
  let n := s.fuse.log.length
  let chain := match s.fuse.log.getLast? with | some r => chainAfter r | none => 0
  let r : AuditRec :=
    { seq := BitVec.ofNat 32 n, tick := s.boot.now, kind := kind, setting := u.setting, bit := BitVec.ofNat 16 u.bit,
      cred := cred, epoch := epoch, detail := u.detail, chain := chain, crc := 0 }
  let r := { r with crc := BitVec.ofNat 32 (crc32c r.body) }
  ({ s with fuse := { s.fuse with log := s.fuse.log ++ [r] } }).flashOp [(0x30000 + 64 * n, r.bytes)]

/-- One use that programs a single bit. -/
def oneBit (setting : BitVec 8) (bit : Nat) (detail : List Byte) : FuseUse :=
  { setting := setting, bit := bit, mask := 1#4096 <<< bit, detail := detail }

/-- Begin a fuse operation: refused whole when the audit log cannot hold its records (R378, R384); otherwise the first INTENT
is written, the pending record of a key program first (R371). -/
def State.startFuse (s : State) (f : Frame) (uses : List FuseUse) (pend : Option (Fin 4 × BitVec 384)) (ident : Option IdRec) :
    State × Status :=
  match uses with
  | [] => (s, .ok)
  | u :: _ =>
    if 512 < s.fuse.log.length + 2 * uses.length then (s, .fuseExhausted)
    else
      let ep := s.tok.epoch.setWidth 8
      let s := match pend with
        | some (k, h) => ({ s with fuse := { s.fuse with pending := some (k, h, true) } }).flashOp [pendRecord k h]
        | none => s
      let s := s.audit 1 u f.cred ep
      ({ s with fuse := { s.fuse with op := some { uses := uses, cred := f.cred, epoch := ep, ident := ident } } }, .accepted)

end Sys2Proof.Machine
end

