-- ==== Sys2Proof/Machine/Identity.lean ====
section
/-! DEFINITION. The identity, bring-up and tick commands (spec/12 Identity; Bring-up and the tick). -/

namespace Sys2Proof.Machine

/-- Code of `CADDY_STATE` (Table 12-3). -/
def CaddyState.code : CaddyState → Nat
  | .empty => 0
  | .domainA => 1
  | .refused => 2
  | .active => 3
  | .leaving => 4
  | .readyToRemove => 5

/-- A caddy bay. -/
def State.bay (s : State) (c : BayId) : Bay := Map.lookD s.bays c.val {}

/-- The tray with a bay changed. -/
def State.modBay (s : State) (c : BayId) (f : Bay → Bay) : State := { s with bays := Map.upd s.bays c.val {} f }

/-- The die of a bay (spec/01 Ports of a Q die). -/
def bayDie (c : BayId) : DieId := ⟨c.val / 2, by omega⟩

/-- Die ports of a bay. -/
def bayPorts (c : BayId) : List Nat := (List.range 32).map (32 * (c.val % 2) + ·)

/-- The bay of an external port of a die. -/
def bayOf (d : DieId) (p : Nat) : BayId := ⟨(2 * d.val + p / 32) % 8, Nat.mod_lt _ (by decide)⟩

/-- Every bay. -/
def allBays : List BayId := [0, 1, 2, 3, 4, 5, 6, 7]

/-- Bit 0 of `FULL_COND` (R551). -/
def State.cablesUp (s : State) : Bool :=
  allDieIds.all fun d => (List.range 64).all fun p =>
    !(s.cabled d).getLsbD p ||
      (match ((s.die d).port p).state with | .active | .held | .disabled => true | _ => false)

/-- Bit 1 of `FULL_COND` (R551). -/
def State.allLocked (s : State) : Bool := allDieIds.all fun d => !(s.die d).on || (s.die d).tick.state == .locked

/-- `FULL_COND` (Table 12-4). -/
def State.fullCond (s : State) : BitVec 8 :=
  (if s.cablesUp then 1 else 0) + (if s.allLocked then 2 else 0) + (if s.boot.ready then 12 else 0)

/-- A byte whose bit i says whether `p` holds of the i-th of a list. -/
def mask8 {α : Type} (l : List α) (p : α → Bool) : Byte :=
  BitVec.ofNat 8 (l.foldr (fun a n => (if p a then 1 else 0) + 2 * n) 0)

/-- A newer identity record waits for the next bring-up (Table 12-2 `ID_PENDING`). -/
def State.idPending (s : State) : Bool :=
  (Map.look s.boot.records s.idIndex).isSome &&
    (match s.boot.ident with | some r => decide (r.index ≠ s.idIndex) | none => true)

/-- The 64 B response of `id.read` (Table 12-2). -/
def State.identity (s : State) : List Byte :=
  let id := match s.boot.ident with
    | some r => [b1 r.spine |>.setWidth 8, BitVec.ofNat 8 s.plane, r.rack, r.slot, BitVec.ofNat 8 r.index]
    | none => [0xFF, Config.noIdent 15, Config.noIdent 16, Config.noIdent 17, Config.noIdent 18]
  let flags := mask8 [!s.debugLocked, s.idPending, s.noKeys] id_
  le 2 1 ++ [3, s.fw.runMajor] ++ le 2 s.fw.runMinor.toNat ++ le 2 s.fw.runSecurity.toNat ++ le 6 s.serial.toNat ++ id ++
    [flags] ++ (allDieIds.map fun d => if (s.die d).on then 0xA2#8 else 0#8) ++ le 6 (Config.mac false).toNat ++
    le 6 (Config.mac true).toNat ++
    [BitVec.ofNat 8 (s.keyState 0 + 4 * s.keyState 1 + 16 * s.keyState 2 + 64 * s.keyState 3), BitVec.ofNat 8 s.floor,
     BitVec.ofNat 8 (16 - s.idIndex), BitVec.ofNat 8 (3 - s.fuseOnes 1780 3)] ++ le 8 s.boot.bootTick.toNat ++ le 16 0
where
  /-- The Boolean itself. -/
  id_ (b : Bool) : Bool := b

/-- ID_READ (R2, R13, R382). -/
def execIdRead (f : Frame) (s : State) : Host.Outcome State Fault Refusal :=
  done (s.serveRead { op := 0x0101, change := false, cap := some 0, len := 0, unsignedOk := true, identity := true } f fun t =>
    (.ok, t.identity))

/-- The 220 B of a bay (Table 12-3). -/
def Bay.block (b : Bay) (bay : Byte) : List Byte :=
  [bay, BitVec.ofNat 8 b.state.code, b.cause, 0] ++ le 2 b.temp.toNat ++ [0, 0] ++
    padTo 212 (if b.state == .empty then [] else b.eeprom)

/-- ID_CADDY (R398, Table 12-3). -/
def execIdCaddy (f : Frame) (bay : Byte) (s : State) : Host.Outcome State Fault Refusal :=
  done (s.serveRead { op := 0x0102, change := false, cap := some 0, len := 4, unsignedOk := true, identity := true } f fun t =>
    if h : bay.toNat < 8 then (.ok, (t.bay ⟨bay.toNat, h⟩).block bay)
    else (.badField, []))

/-- The fields of `id.write` are in range for the role they name (R431, Table 12-2). -/
def identityRange (role rack slot : Byte) : Bool :=
  if role = 0 then decide (rack.toNat ≤ 15) && decide (slot.toNat ≤ 3)
  else role == 1 && decide (rack.toNat ≤ 1) && decide (slot.toNat ≤ 15)

/-- ID_WRITE (R380, R431 to R433). -/
def execIdWrite (f : Frame) (role rack slot : Byte) (s : State) : Host.Outcome State Fault Refusal :=
  done (s.serve { op := 0x0105, change := true, len := 4 } f fun t =>
    let k := t.idIndex
    let rec_ : IdRec := { index := k, spine := role == 1, rack := rack, slot := slot }
    let same := match t.boot.ident with
      | some r => r.spine == (role == 1) && r.rack == rack && r.slot == slot
      | none => false
    if !identityRange role rack slot || (same && !t.idPending) then (t, .now .badField [])
    else if t.fuse.op.isSome then (t, .now .busy [])
    else if k = 0 && (Map.look t.boot.records 0).isNone then
      (({ t with boot := { t.boot with records := Map.put t.boot.records 0 rec_ } }).flashOp [rec_.record], .now .ok [0, 16, 0, 0])
    else match t.fuseNext 1760 16 with
      | none => (t, .now .fuseExhausted [])
      | some b =>
        let r := t.startFuse f [oneBit 4 b (le 1 (k + 1))] none (some { rec_ with index := k + 1 })
        (r.1, .now r.2 (if r.2 = .accepted then [BitVec.ofNat 8 (k + 1), BitVec.ofNat 8 (15 - k), 0, 0] else [])))

/-- ID_IDENTIFY (R435). -/
def execIdIdentify (f : Frame) (identify : Byte) (s : State) : Host.Outcome State Fault Refusal :=
  done (s.serve { op := 0x0106, change := true, len := 4 } f fun t =>
    if identify.toNat > 1 then (t, .now .badField [])
    else if t.boot.stage.code < 3 then (t, .now .busy [])
    else ({ t with boot := { t.boot with identifyNext := some (t.boot.now + 1, identify == 1) } }, .now .ok []))

/-- The 16 B of `boot.status` (Table 12-4). -/
def State.bootBlock (s : State) : List Byte :=
  [BitVec.ofNat 8 s.boot.stage.code, s.pow.state.setWidth 8, s.fullCond, mask8 allDieIds fun d => (s.die d).on,
   mask8 allBays fun c => (s.bay c).state != .empty,
   mask8 allBays fun c => (bayPorts c).all fun p =>
     !(s.cabled (bayDie c)).getLsbD p ||
       (let q := (s.die (bayDie c)).port p; q.state == .active && q.width == 4),
   s.boot.resetCause, 0] ++ le 8 s.boot.stageTick.toNat

/-- BOOT_STATUS (R535, Table 12-4). -/
def execBootStatus (f : Frame) (s : State) : Host.Outcome State Fault Refusal :=
  done (s.serveRead { op := 0x0201, change := false, len := 0 } f fun t =>
    (.ok, t.bootBlock))

/-- BOOT_READY (R436). -/
def execBootReady (f : Frame) (s : State) : Host.Outcome State Fault Refusal :=
  done (s.serve { op := 0x0202, change := true, len := 0 } f fun t =>
    let t := { t with boot := { t.boot with ready := true } }
    (t, .now .ok [t.fullCond, 0, 0, 0]))

/-- A die in TICK_FAULT returns to UNLOCKED (R579). -/
def Die.leaveTickFault (x : Die) : Die :=
  if x.tick.state == .tickFault then
    { x with tick := { x.tick with state := .unlocked, parent := none, nextParent := none, drop := none, within := 0,
                                   faultCause := 0 } }
  else x

/-- TICK_CONFIG (R71, R437, R438, R579). -/
def execTickConfig (f : Frame) (priority period : Byte) (s : State) : Host.Outcome State Fault Refusal :=
  done (s.serve { op := 0x0210, change := true, len := 4 } f fun t =>
    let keep := period == 0xFF || period == t.elect.period.setWidth 8
    if priority ≠ 0 && t.isLeaf then (t, .now .invalidForRole [])
    else if 3 ≤ period.toNat && period ≠ 0xFF then (t, .now .badField [])
    else if !keep && allDieIds.any (fun d =>
        (t.die d).on && ((t.die d).tick.state == .locked || (t.die d).tick.state == .holdover)) then (t, .now .busy [])
    else
      let per := if keep then t.elect.period else period.setWidth 2
      let t := { t with elect := { t.elect with priority := priority, period := per } }
      (t.allDies fun x =>
        let x := x.leaveTickFault
        if x.tick.state == .unlocked && x.tick.parent.isNone then { x with tick := { x.tick with period := per } } else x,
       .now .ok []))

/-- Record of a die in `tick.status` (Table 12-5). -/
def Die.tickRecord (x : Die) : List Byte :=
  [BitVec.ofNat 8 x.tick.state.code,
   match x.tick.parent with | some p => BitVec.ofNat 8 p.val | none => 0xFF,
   x.tick.hop.setWidth 8, x.tick.epoch] ++ le 2 (BitVec.ofInt 16 x.tick.offset).toNat ++ [x.tick.faultCause, 0] ++
    le 4 x.tick.holdTicks.toNat ++ le 8 x.now.toNat ++ le 4 0

/-- The 104 B of `tick.status` (Table 12-5). -/
def State.tickBlock (s : State) : List Byte :=
  [s.elect.priority, s.elect.period.setWidth 8, mask8 [0] fun (_ : Nat) => allDieIds.any fun d => (s.die d).tick.master] ++
    le 5 0 ++ allDieIds.flatMap fun d => (s.die d).tickRecord

/-- TICK_STATUS (R66, Table 12-5). -/
def execTickStatus (f : Frame) (s : State) : Host.Outcome State Fault Refusal :=
  done (s.serveRead { op := 0x0211, change := false, len := 0 } f fun t =>
    (.ok, t.tickBlock))

end Sys2Proof.Machine
end

