-- ==== Sys2Proof/Machine/Pours.lean ====
section
/-! DEFINITION. Queues and marks (spec/06 R243), least-cost choice (spec/05 R183), the paths of a group tree (spec/07 Table 07-5), the packets a die sends
for a pour, and the abort of a pour (spec/07 R271, R293, R294). -/

namespace Sys2Proof.Machine

/-! ### Queues and cost -/

/-- Q: bytes held for one egress port, partition and virtual channel. -/
def Die.queueBytes (x : Die) (port part vc : Nat) : Nat :=
  x.held.foldl (fun n h =>
    if (h.bin == .queue || h.bin == .circuit) && h.outPort == port && h.hdr.part.toNat == part && h.hdr.vc.toNat == vc then
      n + h.hdr.bytes else n) 0

/-- Ports in ascending order from the port after `last`, wrapping round. -/
def rotate (ports : List Nat) (last : Nat) : List Nat :=
  ports.filter (fun p => decide (last < p)) ++ ports.filter (fun p => decide (p ≤ last))

/-- The port of least cost, bytes queued divided by width, ties to the next tied port after the one chosen last (R183). -/
def Die.leastCost (x : Die) (part vc : Nat) (ports : List Nat) : Option Nat :=
  let order := match Map.look x.lastPort (8 * part + vc) with | some l => rotate ports l | none => ports
  let better (a b : Nat) : Bool :=
    decide (x.queueBytes b part vc * max 1 (x.port a).nowWidth < x.queueBytes a part vc * max 1 (x.port b).nowWidth)
  order.foldl (fun m p => match m with | none => some p | some a => if better a p then some p else m) none

/-- The port of the view that R181 admits. -/
def Die.ok (x : Die) (p : Nat) : Bool := x.usable.getLsbD p

/-- Up ports of a leaf die towards leaf index `l` that REACH and the links allow (R118, R181). -/
def Die.upPorts (x : Die) (l : Nat) (mask : BitVec 32) : List Nat :=
  let m := mask &&& x.view.reachOf l
  (List.range 32).filterMap fun s => if m.getLsbD s && x.ok (32 + s) then some (32 + s) else none

/-- Bridge port towards a sibling: the lower port on VC1, the upper on VC2, the other when that one is out (R119). -/
def Die.bridgeTo (x : Die) (d e : DieId) (vc : Nat) : Option Nat :=
  let b := bridgePort d e
  let first := if vc = 2 then b + 1 else b
  let other := if vc = 2 then b else b + 1
  if x.ok first then some first else if x.ok other then some other else none

/-! ### Discards -/

/-- A fault of R560 touches a partition at a die; it fences the partition when `FAIL_MODE` is RESTART (R570, R459). -/
def Die.touch (x : Die) (part : Nat) : Die :=
  if (x.view.part part).restart then { x with touched := setBit x.touched part true } else x

/-- Discard a packet: counted once, and by its `DST` (R569); `touch` where the discard is a fault of R560. -/
def Die.discard (x : Die) (h : Hdr) (key : Nat) (touch : Bool := false) : Die :=
  let x := x.count key
  let x := { x with lostTo := Map.upd x.lostTo h.dst.toNat 0 (· + 1) }
  if touch then x.touch h.part.toNat else x

/-! ### Group trees -/

/-- Header of a pour's packet between two dies. `far` is the leaf index of the die it is for, none towards a spine die. -/
def treeHdr (k : PourKey) (part : BitVec 4) (vc : Nat) (far : Option Nat) (len : Nat) (mark : Bool) : Hdr :=
  let ids := Config.treeIds k.group k.pour
  { dst := match far with | some l => BitVec.ofNat 6 l ++ fld ids 0 5 | none => fld ids 0 11, src := fld ids 11 11, part := part,
    vc := BitVec.ofNat 3 vc, type := if vc = 2 then 0x0A else if k.gather then 0x09 else 0x08, mark := mark,
    group := k.group, pour := k.pour, len := BitVec.ofNat 13 len }

/-- Header of a result or completion packet of a member (R292). -/
def memberHdr (k : PourKey) (part : BitVec 4) (ep : BitVec 11) (completion : Bool) (len : Nat) (mark : Bool) : Hdr :=
  { dst := ep, src := ep, part := part, vc := 2, type := if completion then 0x0B else 0x0A, mark := mark, group := k.group,
    pour := k.pour, len := BitVec.ofNat 13 len }

/-- The mode and threshold of a queue call for a mark on a packet that enters it (R243, R242, R640). -/
def Die.marks (x : Die) (port : Nat) (h : Hdr) : Bool :=
  let c := x.view.congOf h.part.toNat h.vc.toNat
  h.type != 0x12 && bit c.mode 1 &&
    decide (c.mark.toNat * (x.port port).nowWidth < x.queueBytes port h.part.toNat h.vc.toNat)

/-- Key of a queue: port, partition and virtual channel. -/
def queueKey (port part vc : Nat) : Nat := 128 * port + 8 * part + vc

/-- A packet enters the queue of an egress port: marked and counted when R243 says so; the window of R255 notes the mark. -/
def Die.enqueue (x : Die) (h : Held) : Die :=
  let m := x.marks h.outPort h.hdr
  let x := if m then
      let y := x.count (cPartVc 10 0 h.hdr.part.toNat h.hdr.vc.toNat)
      { y with window := Map.upd y.window (queueKey h.outPort h.hdr.part.toNat h.hdr.vc.toNat) 0 fun n => n ||| 1 }
    else x
  { x with held := x.held ++ [{ h with id := x.nextId, hdr := { h.hdr with mark := h.hdr.mark || m } }], nextId := x.nextId + 1 }

/-- Queue a packet that a place of this die sends. It leaves from blend memory and takes no segment. -/
def Die.sendOwn (x : Die) (port : Nat) (h : Hdr) (data : List Byte) (place : Option (PourKey × Place)) : Die :=
  x.enqueue { id := 0, inPort := 72, outPort := port, hdr := h, data := data, bin := .queue, seg := 64, tick := x.now,
              place := place }

/-- Cut bytes into pieces of at most `n`; one empty piece for no bytes. -/
def chop (n : Nat) (bs : List Byte) : List (List Byte) :=
  if bs.length ≤ n then [bs]
  else (List.range (ceilDiv bs.length n)).map fun i => (bs.drop (i * n)).take n

/-- Bytes made up to a multiple of 4 (R93). -/
def pad4 (bs : List Byte) : List Byte := bs ++ List.replicate ((4 - bs.length % 4) % 4) 0#8

/-- A member's result made up to a `LEN` of R93: a reduce-scatter share of 2 bytes modulo 4 takes two bytes that the manual does not
state (log entry 121). -/
def resultBytes (k : PourKey) (bs : List Byte) : List Byte :=
  if bs.length % 4 = 0 then bs else bs ++ le (4 - bs.length % 4) (Config.shareFill k.group k.pour).toNat

/-- A part of one sender's stream of a pour to one receiver: a blend head and up to 4,064 B of data a packet; `LAST`, when the
head has it, on the final one (R284). -/
def Die.sendStream (x : Die) (port : Nat) (k : PourKey) (part : BitVec 4) (vc : Nat) (far : Option Nat) (head : BlendHead)
    (at_ : Nat) (data : List Byte) (mark : Bool) (place : Option (PourKey × Place)) : Die :=
  let ps := chop 4064 data
  (List.range ps.length).foldl (fun (y : Die) i =>
    let d := pad4 (ps.getD i [])
    let hd := { head with last := head.last && decide (i + 1 = ps.length), offset := BitVec.ofNat 24 (at_ + 4064 * i) }
    y.sendOwn port (treeHdr k part vc far (32 + d.length) mark) (le 32 hd.word.toNat ++ d) place) x

/-- The sibling die of a leaf index of this tray. -/
def siblingOf (l : Nat) : DieId := ⟨l % 4, Nat.mod_lt _ (by decide)⟩

/-- The path of a relayed pour to another leaf die: a port of the bridge pair within a tray, an up port otherwise, of least cost at the
first packet and kept for the pour (R287). -/
def State.relayPort (s : State) (d : DieId) (k : PourKey) (part vc far : Nat) : Option Nat :=
  let x := s.die d
  match x.relays.find? fun r => r.key == k && r.far == far && (r.down == (vc == 2)) with
  | some r => if x.ok r.port then some r.port else none
  | none =>
    let b := bridgePort d (siblingOf far)
    x.leastCost part vc (if far / 4 = s.leafIndex d / 4 then [b, b + 1].filter x.ok else x.upPorts far (BitVec.allOnes 32))

/-- Keep the path of a relayed pour. -/
def Die.noteRelay (x : Die) (k : PourKey) (vc far port : Nat) : Die :=
  if x.relays.any fun r => r.key == k && r.far == far && (r.down == (vc == 2)) then x
  else { x with relays := x.relays ++ [{ key := k, down := vc == 2, far := far, port := port }] }

/-- Leaf index of the root die of a tray set (R259). -/
def Group.rootLeaf (g : Group) (t : Nat) : Option Nat := (g.home (4 * t)).map fun l => 4 * (l / 4) + gRootDie g.control

/-- Port of a spine die towards leaf index `l`: its own link, or that of the lowest-numbered sibling with a link in service
(Table 07-5). -/
def Die.downTo (x : Die) (l : Nat) : Option Nat :=
  if x.ok l then some l else [4 * (l / 4), 4 * (l / 4) + 1, 4 * (l / 4) + 2, 4 * (l / 4) + 3].find? fun p => x.ok p

/-- Spine die serving a slot (R279); none when every bit of the mask is set (R280). -/
def servingSpine (coll : BitVec 32) (alt q : Nat) : Option Nat :=
  if !coll.getLsbD q then some q
  else ((List.range 32).map fun k => (q + alt + k) % 32).find? fun z => z != q && !coll.getLsbD z

/-- Group rank of an endpoint in a group, by the alias table (R257, R563). -/
def State.rankOf (s : State) (d : DieId) (c : BitVec 128) (ep : BitVec 11) : Option Nat :=
  let x := s.die d
  (List.range (gRanks c)).find? fun i => x.view.aliasOf (gPart c) ((gBase c + i * gStride c) % 2048) x.now == some ep

/-- Endpoint of a group rank. -/
def State.memberOf (s : State) (d : DieId) (c : BitVec 128) (i : Nat) : Option (BitVec 11) :=
  let x := s.die d
  x.view.aliasOf (gPart c) ((gBase c + i * gStride c) % 2048) x.now

/-- Group ranks of a block. -/
def blockRanks (c : BitVec 128) (b : Nat) : List Nat := (List.range 32).filterMap fun i =>
  if 32 * b + i < gRanks c then some (32 * b + i) else none

/-- Send a member its result packets and its completion word, on its down port or by relay (R292, Table 07-5). -/
def State.sendMember (s : State) (d : DieId) (k : PourKey) (part : BitVec 4) (rank : Nat) (ep : BitVec 11)
    (result : Option (List Byte)) (word : BitVec 128) (mark : Bool) (place : Option (PourKey × Place)) : State :=
  let w := le 16 word.toNat
  let result := result.map (resultBytes k)
  if leafOf ep = s.leafIndex d then
    let port := ep.toNat % 32
    s.modDie d fun x =>
      let x := match result with
        | none => x
        | some bytes =>
          let full := bytes.length / 4096
          let x := (List.range full).foldl (fun (y : Die) i =>
            y.sendOwn port (memberHdr k part ep false 4096 mark) ((bytes.drop (4096 * i)).take 4096) place) x
          let rest := bytes.drop (4096 * full)
          x.sendOwn port (memberHdr k part ep false rest.length mark) rest place
      x.sendOwn port (memberHdr k part ep true 16 mark) w place
  else
    let far := leafOf ep
    match s.relayPort d k part.toNat 2 far with
    | none => s.modDie d fun x => x.discard (treeHdr k part 2 (some far) 0 false) (cPart 6 2 part.toNat) true
    | some port => s.modDie d fun x =>
        (x.noteRelay k 2 far port).sendStream port k part 2 (some far)
          { kind := 5, gather := k.gather, last := true, pos := BitVec.ofNat 11 rank } 0
          ((result.getD []) ++ w) mark place

/-! ### Aborts -/

/-- Pours that a die holds, each once. -/
def Die.pourKeys (x : Die) (p : Pour → Bool) : List PourKey := ((x.pours.filter p).map fun q => q.key).eraseDups

/-- The pour at a place of a die. -/
def Die.pourAt (x : Die) (k : PourKey) (pl : Place) (slot : Nat := 0) : Option Pour :=
  x.pours.find? fun q => q.key == k && q.place == pl && q.slot == slot

/-- Free the pot that a pour holds. -/
def Die.freePot (x : Die) (n : Option Nat) : Die :=
  match n with
  | some i => { x with pots := Map.upd x.pots i {} fun p => { p with pour := none, freed := some x.now } }
  | none => x

/-- A packet of the place's output still waits. -/
def Die.owes (x : Die) (k : PourKey) (pl : Place) : Bool := x.held.any fun h => h.place == some (k, pl)

/-- The place has sent its last output: its pots are free, and its part of the pour is over; after delivery the pour has ended (R289,
R294). What a home die keeps of level 1 it needs until then (R268, R293). -/
def Die.placeDone (x : Die) (k : PourKey) (pl : Place) : Die :=
  let here (q : Pour) : Bool := q.key == k && q.place == pl
  if x.owes k pl || x.pours.any fun q => here q && !q.started then x
  else
    let x := (x.pours.filter here).foldl (fun (y : Die) q => y.freePot q.pot) x
    match pl with
    | .level1 => { x with pours := x.pours.map fun q => if here q then { q with pot := none } else q }
    | .delivery =>
      let c := (x.view.group k.group.toNat).control
      let r : AbortRec := { key := k, status := 0, tick := x.now, until_ := x.now + BitVec.ofNat 48 (gTimeout c) }
      { x with pours := x.pours.filter fun q => q.key != k, aborts := (x.aborts.filter fun r => r.key != k) ++ [r],
               relays := x.relays.filter fun r => r.key != k }
    | _ => { x with pours := x.pours.filter fun q => !here q }

/-- Record of a pour that has ended (R271, R294). -/
def Die.record (x : Die) (k : PourKey) : Option AbortRec :=
  x.aborts.find? fun r => r.key == k && !reached x.now r.until_

/-- `MARK` of some input of a pour (R247). -/
def Pour.mark (q : Pour) : Bool := q.inputs.any fun i => i.2.mark

/-- `MARK` of some input of a pour that the die holds (R247). -/
def Die.pourMark (x : Die) (k : PourKey) : Bool := x.pours.any fun q => q.key == k && q.mark

/-- The die's own part of an abort: pots freed, outputs not yet sent withdrawn except those of a delivery that has started, inputs that
wait in the packet buffer discarded and counted (R99, R271), and the pour recorded. -/
def Die.dropPour (x : Die) (k : PourKey) (status : BitVec 4) (mark : Bool) : Die :=
  let c := (x.view.group k.group.toNat).control
  let keep (q : Pour) : Bool := q.key != k || (q.place == .delivery && q.started)
  let gone := x.pours.filter fun q => !keep q
  let told := match x.pourAt k .level1 with | some q => q.inputs.map fun i => i.2.rank | none => []
  let r : AbortRec :=
    { key := k, status := status, tick := x.now, until_ := x.now + BitVec.ofNat 48 (gTimeout c), told := told,
      mark := mark || x.pourMark k }
  let x := gone.foldl (fun (y : Die) q => y.freePot q.pot) x
  let x := gone.foldl (fun (y : Die) q =>
    if q.waits.isEmpty then y else y.count (cPart 11 1 q.part.toNat) q.waits.length) x
  { x with pours := x.pours.filter keep,
           held := x.held.filter fun h => match h.place with | some (j, pl) => j != k || pl == .delivery | none => true,
           aborts := (x.aborts.filter fun r => r.key != k) ++ [r],
           lastAbort := Map.put x.lastAbort k.group.toNat r }

/-- The completion words with which a home die ends a pour whose delivery has not started (R293, R294): to every member that
contributed. -/
def State.abortWords (s : State) (d : DieId) (k : PourKey) (part : BitVec 4) (status : BitVec 4) (ins : Map Input) (mark : Bool) :
    State :=
  let c := ((s.die d).view.group k.group.toNat).control
  ins.foldl (fun (t : State) i =>
    match t.memberOf d c i.2.rank with
    | some ep => t.sendMember d k part i.2.rank ep none
        (completionWord k.pour k.group status k.gather 0 (BitVec.ofNat 20 (min i.2.dropped 1048575)) 0 0 0) mark none
    | none => t) s

/-- The abort heads of R294, on the paths of Table 07-5: from a spine die down to every home die; from a root die to every serving spine
die, which sends them down; from a home die that is no root die to its root die (DEDUCED, log entry 122). -/
def State.abortHeads (s : State) (d : DieId) (k : PourKey) (part : BitVec 4) (status : BitVec 4) (mark : Bool) : State :=
  let g := (s.die d).view.group k.group.toNat
  let c := g.control
  let head : BlendHead := { kind := 6, gather := k.gather, last := true, pos := 0, abort := status }
  if s.isSpine then
    (((List.range (gBlocks c)).filterMap fun b => g.home b).eraseDups).foldl (fun (t : State) l =>
      match (t.die d).downTo l with
      | some p => t.modDie d fun x => x.sendStream p k part 2 (some l) head 0 [] mark none
      | none => t) s
  else if gRootValid c then
    let coll := (s.die d).view.collOut
    (((List.range 32).filterMap fun q => servingSpine coll (gAlt c) q).eraseDups).foldl (fun (t : State) z =>
      if (t.die d).ok (32 + z) then t.modDie d fun x => x.sendStream (32 + z) k part 1 none head 0 [] mark none else t) s
  else if gHomeValid c then
    match g.rootLeaf (gHomeBlock c / 4) with
    | none => s
    | some root =>
      match (if root / 4 = s.leafIndex d / 4 then (s.die d).bridgeTo d (siblingOf root) 1 else s.relayPort d k part.toNat 1 root) with
      | some p => s.modDie d fun x => x.sendStream p k part 1 (some root) head 0 [] mark none
      | none => s
  else s

/-- Abort a pour at a die (R294): a pour that has already ended there is left as it is. `heads` false where another place's
abort head caused it, whose `MARK` is `mark`. -/
def State.abortPour (s : State) (d : DieId) (k : PourKey) (status : BitVec 4) (heads : Bool := true) (mark : Bool := false) : State :=
  let x := s.die d
  let c := (x.view.group k.group.toNat).control
  let part := BitVec.ofNat 4 (gPart c)
  match x.record k with
  | some _ => s
  | none =>
    let started := x.pours.any fun q => q.key == k && q.place == .delivery && q.started
    let ins := match x.pourAt k .level1 with | some q => q.inputs | none => []
    let m := mark || x.pourMark k
    let s := s.modDie d fun x => x.dropPour k status mark
    let s := if started || !gHomeValid c then s else s.abortWords d k part status ins m
    let s := if heads then s.abortHeads d k part status m else s
    if status = 3 || status = 4 then s.modDie d fun x => x.touch part.toNat else s

/-- Abort every pour of a die that passes a test. -/
def State.abortAll (s : State) (d : DieId) (status : BitVec 4) (p : Pour → Bool) : State :=
  ((s.die d).pourKeys p).foldl (fun (t : State) k => t.abortPour d k status) s

end Sys2Proof.Machine
end

