-- ==== Sys2Proof/Machine/LinkOps.lean ====
section
/-! DEFINITION. What the link commands and link events share: lane choice and switches (spec/04 R144, R146), reach notices
(spec/05 R188, spec/07 R281), discards, and the failure of a link (spec/04 R150 to R153, spec/05 R187, spec/07 R283,
spec/16 R561, R573, R574). -/

namespace Sys2Proof.Machine

/-! ### Lanes and switches -/

/-- Score of a lane: the lower of the two ends' margins, 0 when declared lost (R146). -/
def Port.score (q : Port) (i : Nat) : Nat :=
  if bit q.lost i then 0 else min (fld q.marginNear (4 * i) 4).toNat (fld q.marginFar (4 * i) 4).toNat

/-- Lanes 0 to 3 by falling score, ties to the lower lane. -/
def Port.byScore (q : Port) : List Nat :=
  (List.range 16).reverse.flatMap fun v => (List.range 4).filter fun i => q.score i == v

/-- A lane mask. -/
def laneMask (l : List Nat) : BitVec 4 := l.foldl (fun m i => setBit m i true) 0

/-- Lanes of R146 among those that `use` allows. -/
def Port.chooseLanes (q : Port) (use : Nat → Bool := fun _ => true) : BitVec 4 :=
  let good := q.byScore.filter fun i => decide (0 < q.score i) && use i
  laneMask (good.take (if 4 ≤ good.length then 4 else if 2 ≤ good.length then 2 else good.length))

/-- A `SWITCH_TICK` that an end of a link names in a tick (R144). -/
def switchTickAt (now : Tick) : Tick := now + 2 + (Config.switchLead now).setWidth 48

/-- Request a switch: WIDTH_REQ is sent and the switch recorded with the moment from which its bound runs (R144, Table 04-6). -/
def State.requestSwitch (s : State) (d : DieId) (p : Nat) (lanes : BitVec 4) (slow : Bool) (reason : BitVec 3) (byLoss : Bool) :
    State :=
  let x := s.die d
  let t := switchTickAt x.now
  let w : Switch := { lanes := lanes, slow := slow, reason := reason, tick := t, byLoss := byLoss, start := x.now }
  (s.modDie d fun x => x.modPort p fun q => { q with sw := some w }).emit
    (.word d p (widthWord lanes slow reason (x.port p).lost t))

/-! ### Events of a port -/

/-- `LANES` of Table 12-6. -/
def Port.lanesByte (q : Port) : Byte := q.lost ++ q.lanes

/-- Raise an event of a die port. -/
def State.raisePort (s : State) (op : Nat) (d : DieId) (p : Nat) (cause : Byte) (detail : List Byte) : State :=
  s.raiseDie op d (BitVec.ofNat 8 p) 0xFF 0xFF cause detail

/-- A width below x4 (R148, R553, R664). -/
def State.raiseDegrade (s : State) (d : DieId) (p : Nat) : State :=
  s.raisePort 0x0381 d p 0 [((s.die d).port p).lanesByte]

/-- `link.retrained` of a port that waits to report (R443). -/
def State.reportRetrain (s : State) (d : DieId) (p : Nat) (failed : Bool) : State :=
  let q := (s.die d).port p
  if q.retrain then
    (s.modDie d fun x => x.modPort p fun q => { q with retrain := false }).raisePort 0x0383 d p (if failed then 1 else 0)
      [q.lanesByte, if q.fullRate then 1 else 0]
  else s

/-! ### Discards -/

/-- A reorder context that holds no packet is free (R196, R198). -/
def Die.freeContexts (x : Die) : Die :=
  let holds (k : Nat) : Bool := x.held.any fun h => h.bin == .reorder && flowKey h.hdr.part h.hdr.src h.hdr.dst == k
  { x with sprayRx := Map.mapVal x.sprayRx fun k f => if f.timer.isSome && !holds k then { f with timer := none } else f }

/-- Discard the held packets that pass a test, each counted under its partition; the places and the reorder contexts that they leave
empty are free. -/
def Die.discardHeld (x : Die) (p : Held → Bool) (key : Held → Nat) (touch : Bool) : Die :=
  let gone := x.held.filter p
  if gone.isEmpty then x
  else
    let y := gone.foldl (fun (y : Die) h => y.discard h.hdr (key h) touch) x
    let y := ({ y with held := y.held.filter fun h => !p h } : Die).freeContexts
    ((gone.filterMap fun h => h.place).eraseDups).foldl (fun (z : Die) e => z.placeDone e.1 e.2) y

/-! ### Reach notices -/

/-- Set or clear a bit of REACH[l] on a die (R188). -/
def Die.setReach (x : Die) (l sp : Nat) (on : Bool) : Die :=
  x.modTab fun t => { t with reach := Map.put t.reach l (setBit (t.reachOf l) sp on) }

/-- A change of `COLL_OUT` that takes effect 2,048 ticks after a declaration (R281). -/
def Die.planColl (x : Die) (decl : Tick) (q : Nat) (out : Bool) : Die :=
  { x with collNext := x.collNext ++ [(decl + 2048, q, out)] }

/-- Change each powered die of the tray. -/
def State.onDies (s : State) (f : Die → Die) : State := s.allDies fun x => if x.on then f x else x

/-- A link of spine die `q` is lost or restored: the tray's `COLL_OUT` changes when a link is lost, and when none remains
lost (R281). -/
def State.noteColl (s : State) (q l : Nat) (restored : Bool) (decl : Tick) : State :=
  let lost := if restored then Map.rem s.notes.lost (64 * q + l) else Map.put s.notes.lost (64 * q + l) true
  let s := { s with notes := { s.notes with lost := lost } }
  if !restored then s.onDies fun x => x.planColl decl q true
  else if lost.any fun e => e.1 / 64 == q then s
  else s.onDies fun x => x.planColl decl q false

/-- Apply a reach notice on a leaf tray, unless a later one for the same (s, L) has been applied (R188, R281). -/
def State.applyReach (s : State) (q l : Nat) (restored : Bool) (decl : Tick) : State :=
  let k := 64 * q + l
  let newer := match Map.look s.notes.applied k with | some t => later decl t | none => true
  if !newer then s
  else
    let s := { s with notes := { s.notes with applied := Map.put s.notes.applied k decl } }
    (s.onDies fun x => x.setReach l q restored).noteColl q l restored decl

/-- A link between a leaf die and a spine die fails or returns (R187, R189, R574). -/
def State.fabricLink (s : State) (d : DieId) (p : Nat) (restored : Bool) : State :=
  let now := (s.die d).now
  if s.isSpine && decide (p < 64) then
    let q := s.spineDie d
    let k := 64 * q + p
    let n := { s.notes with due := Map.put s.notes.due k (restored, now),
                            down := if restored then Map.rem s.notes.down k else Map.put s.notes.down k now }
    ({ s with notes := n }).noteColl q p restored now
  else if s.isUp p then s.applyReach (p - 32) (s.leafIndex d) restored now
  else s

/-! ### Failure -/

/-- The sender at position `pos` has sent `LAST`, and no packet of its stream was lost to a buffer error (R223, R284). -/
def Pour.has (q : Pour) (pos : Nat) : Bool := match Map.look q.inputs pos with | some i => i.last && !i.dead | none => false

/-- R283 at a leaf die: the pour awaits output of a slot that spine die `z` serves, or has a level-2 partial not yet sent to
it. A home die awaits the slots from the start of its level-1 stage on (DEDUCED, log entry 123). -/
def Die.needsSpine (x : Die) (k : PourKey) (z : Nat) : Bool :=
  let g := x.view.group k.group.toNat
  let slots := (List.range 32).filter fun q => servingSpine x.view.collOut (gAlt g.control) q == some z
  let unsent := x.held.any fun h => h.place == some (k, .level2) && h.outPort == 32 + z
  let awaits :=
    match x.pourAt k .delivery with
    | some q => !q.started && slots.any fun n => !q.has n
    | none => (match x.pourAt k .level1 with | some q => q.started && !slots.isEmpty | none => false)
  unsent || awaits

/-- R283 at a spine die: the pour awaits input from leaf die `l` or owes output to it. -/
def Die.needsLeaf (x : Die) (q : Pour) (l : Nat) : Bool :=
  let g := x.view.group q.key.group.toNat
  if q.started then x.held.any fun h => h.place == some (q.key, .level3) && leafOf h.hdr.dst == l
  else (List.range (gBlocks g.control)).any (fun b => g.home b == some l) ||
    (List.range (gSets g.control)).any fun t => g.rootLeaf t == some l && !q.has t

/-- R573: the pour awaits input from the sibling of leaf index `l`, or owes output to it. -/
def State.needsSibling (s : State) (d : DieId) (k : PourKey) (l : Nat) : Bool :=
  let g := (s.die d).view.group k.group.toNat
  let own := s.leafIndex d
  let homes := (List.range (gBlocks g.control)).filter fun b => g.home b == some l
  let roots := (List.range (gSets g.control)).filter fun t => g.rootLeaf t == some l
  let mine := (List.range (gBlocks g.control)).filter fun b => g.home b == some own
  let rooted := (List.range (gSets g.control)).filter fun t => g.rootLeaf t == some own
  (homes.any fun b => rooted.contains (b / 4)) || (mine.any fun b => roots.contains (b / 4))

/-- Pours that the failure of a port ends with SPINE_LOST (R283). -/
def State.portPours (s : State) (d : DieId) (p : Nat) : List PourKey :=
  let x := s.die d
  if s.isSpine then (if p < 64 then x.pourKeys fun q => q.place == .level3 && x.needsLeaf q p else [])
  else if s.isUp p then x.pourKeys fun q => x.needsSpine q.key (p - 32)
  else []

/-- Abort the pours of a list with SPINE_LOST. -/
def State.abortLost (s : State) (d : DieId) (l : List PourKey) : State := l.foldl (fun (t : State) k => t.abortPour d k 3) s

/-- Both ports of a bridge pair are out of service: reported, and the pours that need the sibling end (R118, R573). -/
def State.bridgeDown (s : State) (d : DieId) (p : Nat) : State :=
  if 64 ≤ p && decide (p < 70) then
    let x := s.die d
    let other := if p % 2 = 0 then p + 1 else p - 1
    if (x.port other).inService then s
    else
      let e := sibling d p
      let s := s.raiseDie 0x0B84 d (BitVec.ofNat 8 p) 0xFF 0xFF 0 (le 1 e.val)
      if s.isLeaf then s.abortAll d 4 fun q => s.needsSibling d q.key (s.leafIndex e) else s
  else s

/-- A sweep run from this end stops with its result; the port stays HELD (R173, R174, R177). -/
def State.endSweep (s : State) (d : DieId) (p : Nat) (result : BitVec 8) : State :=
  match ((s.die d).port p).near with
  | none => s
  | some n =>
    let mine (r : SweepRec) : Bool := r.running && r.req == n.req
    let points := match s.sweeps.find? mine with | some r => r.done | none => 0
    let s := { s with sweeps := s.sweeps.map fun r => if mine r then { r with running := false, result := result } else r }
    (s.modDie d fun x => x.modPort p fun q => { q with near := none, state := .held }).raisePort 0x0384 d p result
      ([n.req.sweepId, 0] ++ le 2 points)

/-- Reset of a port's link on failure: retry, permission and receive state are lost (R152, R229). The mark of a leaving caddy stays
on its port (R163). -/
def Port.resetLink (q : Port) (dest : LinkState) (cause : BitVec 3) : Port :=
  { q with
    state := dest, cause := cause, leaveTo := none, lanes := 0, lost := 0,
    fullRate := false, locked := 0, farLocked := 0, badId := 0, sw := none, oldSkid := none, widen := false, boundOver := false,
    training := false, settle := false, measured := false, probed := none, nakOut := 0, txNext := 0, txAck := 0, retry := [], wait := [], resend := 0,
    txPkts := [], rxNext := 0, rxUnacked := 0, rxStream := [], nakSent := none, nakSeq := 0, nakCount := 0, timeouts := 0,
    txXon := 0, txPool := false, farWant := 0, farWantPool := false, rxXon := 0, rxPool := false, xoffs := [], lastRx := [],
    deficit := [], drrAt := 3, sent := [], busy := none, through := none }

/-- A port holds nothing to send (R164, R439). -/
def Die.emptied (x : Die) (p : Nat) : Bool :=
  let q := x.port p
  q.retry.isEmpty && q.wait.isEmpty && !x.held.any fun h => h.outPort == p && (h.bin == .queue || h.bin == .circuit)

/-- R152 at both directions of a failed port: unacknowledged packets, a packet received in part, and the packets queued for
the port (R182, R187). -/
def Die.failPackets (x : Die) (p : Nat) : Die :=
  let q := x.port p
  let x := q.txPkts.foldl (fun (x : Die) t => x.discard { dst := t.dst, part := t.part } (cPort 2 1 p) true) x
  let x := if q.rxStream.isEmpty then x
    else (x.count (cPort 2 2 p)).touch (fld (Hdr.ofWord (BitVec.ofNat 256 (leNat (q.rxStream.take 32)))).part 0 4).toNat
  x.discardHeld (fun h => h.outPort == p && (h.bin == .queue || h.bin == .circuit)) (fun h => cPart 6 2 h.hdr.part.toNat) true

/-- The failures of a port that R153 counts: those of the last 65,536 ticks. -/
def recentFails (now : Tick) (l : List Tick) : List Tick := l.filter fun t => within now t 65536

/-- Where a failed port goes: DISABLED at the fourth failure within 65,536 ticks, otherwise DETECT (R153), or DISABLED for the cause
`off` while it has no power. A failure by `link.retrain` FULL, row 6, does not count (R442). -/
def failTarget (now : Tick) (l : List Tick) (row : Nat) (off : Option (BitVec 3)) : LinkState × BitVec 3 :=
  if row ≠ 6 && decide (4 ≤ (recentFails now l).length + 1) then (.disabled, 4)
  else match off with
    | some c => (.disabled, c)
    | none => (.detect, 0)

/-- A port that only `link.retrain` takes out of DISABLED: flapping, or disabled by `link.config` (R153, R439, R442). -/
def Port.keptOff (q : Port) : Bool := q.state == .disabled && (q.cause == 3 || q.cause == 4)

/-- Cause of a DISABLED port without power (Table 12-6). -/
def State.offCause (s : State) (d : DieId) (p : Nat) : BitVec 3 := if p < 64 && !(s.cabled d).getLsbD p then 5 else 0

/-- The port has a link that can fail: it is neither DISABLED nor in DETECT. A port that still trains counts as one (DESIGN CHOICE, log
entry 117). -/
def Port.up (q : Port) : Bool := match q.state with | .disabled | .detect => false | _ => true

/-- Declare a link failed for a cause in a row of Table 04-6 (R150); `off` where the port's lane group or die loses power. -/
def State.failLink (s : State) (d : DieId) (p : Nat) (row : Nat) (off : Bool := false) : State :=
  let x := s.die d
  let q := x.port p
  if !q.up then
    (if off && !q.keptOff then s.modDie d fun x => x.modPort p fun q => q.resetLink .disabled (s.offCause d p) else s)
  else
    let dest := failTarget x.now q.fails row (if off then some (s.offCause d p) else none)
    let part := if s.isDown p then Map.look x.view.portPart p else none
    let pours := s.portPours d p
    let s := s.reportRetrain d p true
    let s := s.endSweep d p 1
    let s := s.modDie d fun x => x.failPackets p
    let s := s.modDie d fun x => x.modPort p fun q =>
      { (q.resetLink dest.1 dest.2) with fails := if row = 6 then recentFails x.now q.fails else recentFails x.now q.fails ++ [x.now] }
    let s := s.raisePort 0x0380 d p (BitVec.ofNat 8 row) (le 4 q.txPkts.length)
    let s := if dest.2 = 4 then s.raisePort 0x0382 d p 0 [4] else s
    let s := match part with
      | some a =>
        let ep := s.endpointId d p
        let s := s.modDie d fun x => { (x.touch a.toNat) with lostTo := Map.put x.lostTo ep.toNat 0 }
        s.raiseDie 0x0B81 d (BitVec.ofNat 8 p) (a.setWidth 8) 0xFF (BitVec.ofNat 8 row) (le 2 ep.toNat)
      | none => s
    ((s.fabricLink d p false).abortLost d pours).bridgeDown d p

end Sys2Proof.Machine
end

