-- ==== Sys2Proof/Machine/FlowOps.lean ====
section
/-! DEFINITION. Flow control as a receiver (spec/06 R225 to R240, R253; spec/19 R635): FLOW words, XOFF and XON, admission, and
the arrival of a packet at a port. State keys are 8 x PART + VC, and 128 for the pool of segment 47. -/

namespace Sys2Proof.Machine

/-! ### FLOW words -/

/-- State key under which the far end of a port permits a held packet: that of the pool for a packet of segment 47 between two Q dies
(R105, R225, R228). -/
def Port.keyOf (q : Port) (h : Held) : Nat := if h.seg = 47 && !q.farEp then 128 else h.hdr.key

/-- The next hop permits a state key (R103, R229). -/
def Port.permitsKey (q : Port) (key : Nat) : Bool := if key = 128 then q.txPool else bit q.txXon key

/-- The die holds a packet for a port and a state key that waits for XON (R237). -/
def Die.waitsFor (x : Die) (p key : Nat) : Bool :=
  !(x.port p).permitsKey key &&
    x.held.any fun h => h.outPort == p && (h.bin == .queue || h.bin == .circuit) && (x.port p).keyOf h == key

/-- `WANT` of a partition on a port (Table 06-2). -/
def Die.wantOf (x : Die) (p part : Nat) : BitVec 8 :=
  (List.range 8).foldl (fun (m : BitVec 8) v => setBit m v (x.waitsFor p (8 * part + v))) 0

/-- The FLOW entry that a port sends for a partition, or for the pool at 16; to an endpoint no pool state is ever XON
(R225). -/
def Die.entryOf (x : Die) (p part : Nat) : BitVec 21 :=
  let q := x.port p
  if part = 16 then flowEntry 0 true (0#7 ++ b1 (!q.rxPool)) (0#7 ++ b1 (x.waitsFor p 128))
  else flowEntry (BitVec.ofNat 4 part) false (~~~(fld q.rxXon (8 * part) 8)) (x.wantOf p part)

/-- Send a change of state in two copies; unused entries repeat the first (R227). -/
def State.sendFlow (s : State) (d : DieId) (p key : Nat) : State :=
  let e := (s.die d).entryOf p (key / 8)
  let w := flowWordOf e e e e
  (s.emit (.word d p w)).emit (.word d p w)

/-- The refresh of all 16 partitions and the pool after a tick marker, in 5 FLOW words (R227). -/
def Die.refreshWords (x : Die) (p : Nat) : List CtlWord :=
  let e (i : Nat) : BitVec 21 := x.entryOf p i
  (List.range 4).map (fun i => flowWordOf (e (4 * i)) (e (4 * i + 1)) (e (4 * i + 2)) (e (4 * i + 3))) ++
    [flowWordOf (e 16) (e 16) (e 16) (e 16)]

/-! ### Token buckets (R253) -/

/-- Units of a bucket's level in a byte. -/
def Die.byteUnit (x : Die) : Nat := 16 * x.ns

/-- Level of a bucket now: it fills at its cap up to 8,256 B. -/
def Die.levelOf (x : Die) (b : Bucket) : Int := min (8256 * x.byteUnit) (b.level + (b.rate * (x.clock - b.at_) : Nat))

/-- The bucket lets XON be granted: it holds at least 4,128 B. -/
def Die.bucketOpen (x : Die) (b : Bucket) : Bool := decide ((4128 * x.byteUnit : Int) ≤ x.levelOf b)

/-- A bucket counted up to now. -/
def Die.levelled (x : Die) (b : Bucket) : Bucket := { b with level := x.levelOf b, at_ := x.clock }

/-! ### XOFF and XON -/

/-- A port holds XON for a state key. -/
def Port.holdsXon (q : Port) (key : Nat) : Bool := if key = 128 then q.rxPool else bit q.rxXon key

/-- The port with its XON for a state key set or cleared. -/
def Port.setXon (q : Port) (key : Nat) (on : Bool) : Port :=
  if key = 128 then { q with rxPool := on } else { q with rxXon := setBit q.rxXon key on }

/-- Send XOFF on a port (R231, R234, R236). -/
def State.sendXoff (s : State) (d : DieId) (p key : Nat) : State :=
  (s.modDie d fun x => x.modPort p fun q =>
    { (q.setXon key false) with xoffs := Map.put q.xoffs key { tick := x.now, at_ := x.clock, arrived := 0 }, lastRx := Map.rem q.lastRx key
      }).sendFlow d p key

/-- The quota of a virtual channel is below the minimum of R238 for a port: it counts every segment held. -/
def Die.quotaShortAt (x : Die) (p part vc : Nat) : Bool :=
  decide ((x.view.segsHeld part).length * (x.view.part part).share vc * 256 < x.skid p + 387)

/-- Some holder of R635 other than the reservation withholds XON on a port (R213, R238, R253, R354, R549, R570, R578). -/
def State.withholds (s : State) (d : DieId) (p key : Nat) : Bool :=
  let x := s.die d
  if key = 128 then (x.port p).farEp
  else
    let part := key / 8
    let vc := key % 8
    let q := x.view.part part
    x.quotaShortAt p part vc || (!x.full && bit preWarmHeld vc) || q.state != .opened ||
      (x.tick.hold && (vc == 1 || vc == 2 || vc == 5)) ||
      (s.isDown p && Map.look x.view.portPart p == some (BitVec.ofNat 4 part) && bit q.quiesced vc) ||
      (s.isDown p && match Map.look (x.port p).buckets key with | some b => !x.bucketOpen b | none => false)

/-- Ports that may hold XON: their link carries packets. -/
def Die.carryPorts (x : Die) : List Nat := (x.ports.filter fun e => decide (e.1 < 70) && e.2.carries).map (·.1)

/-- One pass of R235 over ports in order: a withheld port is skipped; the first that finds no room stops the pass. -/
def State.grantPass (s : State) (d : DieId) (key : Nat) : List Nat → State
  | [] => s
  | p :: rest =>
    let x := s.die d
    if s.withholds d p key then s.grantPass d key rest
    else if x.roomOf key < (x.resSum key : Int) + (x.skid p : Int) + 258 then
      s.modDie d fun x => { x with xonNext := Map.put x.xonNext key ((p + 127) % 128) }
    else
      let s := s.modDie d fun x =>
        let x := x.modPort p fun q =>
          { (q.setXon key true) with xoffs := Map.rem q.xoffs key, lastRx := Map.put q.lastRx key x.now }
        { x with xonNext := Map.put x.xonNext key p }
      (s.sendFlow d p key).grantPass d key rest

/-- Ports whose far end shows `WANT` for a state key and that do not hold XON (R235). -/
def Die.wanting (x : Die) (key : Nat) : List Nat :=
  x.carryPorts.filter fun p =>
    let q := x.port p
    !q.holdsXon key && (if key = 128 then q.farWantPool else bit q.farWant key)

/-- Grant XON for a state key, in round-robin order from the port after the one granted last (R235). -/
def State.grant (s : State) (d : DieId) (key : Nat) : State :=
  let x := s.die d
  let order := match Map.look x.xonNext key with | some l => rotate (x.wanting key) l | none => x.wanting key
  s.grantPass d key order

/-- After an arrival: XOFF on every port that holds XON when F - H is below 129 (R234). -/
def State.checkXoff (s : State) (d : DieId) (key : Nat) : State :=
  let x := s.die d
  if x.roomOf key < (x.resSum key : Int) + 129 then
    ((x.ports.filter fun e => e.2.holdsXon key).map (·.1)).foldl (fun (t : State) p => t.sendXoff d p key) s
  else s

/-! ### Flows of a destination leaf die -/

/-- A flow begins with the loss that a re-map of its `SRC` or `DST` has declared (R222, R567). -/
def Die.lossOf (x : Die) (h : Hdr) : Bool :=
  Map.lookD x.moved (2048 * h.part.toNat + h.src.toNat) false || Map.lookD x.moved (2048 * h.part.toNat + h.dst.toNat) false

/-- State of a VC3 flow (R191). -/
def Die.spray (x : Die) (k : Nat) : SprayFlow :=
  Map.lookD x.sprayRx k
    { loss := Map.lookD x.moved (2048 * keyPart k + k / 2 ^ 11 % 2 ^ 11) false || Map.lookD x.moved (2048 * keyPart k + k % 2 ^ 11) false }

/-- The flow with its state changed. -/
def Die.modSpray (x : Die) (k : Nat) (f : SprayFlow → SprayFlow) : Die := { x with sprayRx := Map.put x.sprayRx k (f (x.spray k)) }

/-! ### Arrivals -/

/-- The port holds XON for the packet, or was sent XOFF less than T_p before (R239). -/
def Die.covered (x : Die) (p key : Nat) : Bool :=
  let q := x.port p
  q.holdsXon key || (match Map.look q.xoffs key with | some o => x.inSkid p o | none => false)

/-- Count what arrives on a port under a state key, in the unit of S_p (spec/06 Reservation and grant), and take it from the
port's token bucket (R253). -/
def Die.arrived (x : Die) (p key bytes : Nat) : Die :=
  x.modPort p fun q =>
    { q with
      xoffs := (match Map.look q.xoffs key with
        | some o => Map.put q.xoffs key { o with arrived := o.arrived + ceilDiv bytes 32 }
        | none => q.xoffs),
      lastRx := if q.holdsXon key then Map.put q.lastRx key x.now else q.lastRx,
      buckets := (match Map.look q.buckets key with
        | some b => Map.put q.buckets key { x.levelled b with level := x.levelOf b - (bytes * x.byteUnit : Nat) }
        | none => q.buckets) }

/-- The flow-control effect of an admitted packet (R234, R236, R253). -/
def State.noteArrival (s : State) (d : DieId) (p key bytes : Nat) : State :=
  let s := (s.modDie d fun x => x.arrived p key bytes).checkXoff d key
  let x := s.die d
  let q := x.port p
  let low := match Map.look q.buckets key with | some b => !x.bucketOpen b | none => false
  if low && q.holdsXon key then s.sendXoff d p key else s

/-- A packet for which there is no room (R239). -/
def State.overrunDrop (s : State) (d : DieId) (p : Nat) (h : Hdr) : State :=
  (s.modDie d fun x => x.discard h (cPort 5 0 p)).raiseDie 0x0981 d (BitVec.ofNat 8 p) (h.part.setWidth 8) (h.vc.setWidth 8) 0
    (le 4 1)

end Sys2Proof.Machine
end

