-- ==== Sys2Proof/Machine/CollOps.lean ====
section
/-! DEFINITION. The pours of a die: contributions (spec/07 R265 to R272), inputs and pots of a place (R284 to R291), the four stages
(R274 to R280, R297), delivery and completion words (R292, R293), and relays (R286, R287). -/

namespace Sys2Proof.Machine

/-! ### Pours and pots -/

/-- Capacity of one contribution in bytes (R267). -/
def capacity (c : BitVec 128) (gather : Bool) : Nat :=
  if gather then 4 * ceilDiv (gCap c * 256) (4 * gRanks c) else gCap c * 256

/-- The place needs a pot (Table 07-3). -/
def needsPot (k : PourKey) (pl : Place) : Bool := !k.gather || pl == .delivery

/-- Pots assigned to a place of a group. -/
def Die.placePots (x : Die) (k : PourKey) (part : BitVec 4) (pl : Place) : List Nat :=
  (x.pots.filter fun e => e.2.owner == some (part, k.group, pl)).map (·.1)

/-- The pot that a pour holds at a place, or a free one that is not being zeroed; a stage finds a pot that was free at the boundary
(R289, R291, R297). -/
def Die.findPot (x : Die) (k : PourKey) (part : BitVec 4) (pl : Place) (stage : Bool := false) : Option Nat :=
  let l := x.placePots k part pl
  match l.find? fun n => (x.pot n).pour == some k with
  | some n => some n
  | none => l.find? fun n =>
      (x.pot n).pour.isNone && !(x.pot n).zeroing && !(stage && (x.pot n).freed == some x.now)

/-- Change the pour at a place. -/
def Die.modPour (x : Die) (k : PourKey) (pl : Place) (slot : Nat) (f : Pour → Pour) : Die :=
  { x with pours := x.pours.map fun q => if q.key == k && q.place == pl && q.slot == slot then f q else q }

/-- The pour takes a pot when it needs one and one is to be had; the inputs that wait for it leave the packet buffer (R289, R291). -/
def Die.givePot (x : Die) (k : PourKey) (part : BitVec 4) (pl : Place) (slot : Nat) (stage : Bool := false) : Die :=
  match x.pourAt k pl slot with
  | some q =>
    if q.pot.isSome || !needsPot k pl then x
    else match x.findPot k part pl stage with
      | some n =>
        ({ x with pots := Map.upd x.pots n {} fun p => { p with pour := some k } }).modPour k pl slot fun q =>
          { q with pot := some n, waits := [] }
      | none => x
  | none => x

/-- The pour at a place, begun with its first input (R289, R295). -/
def Die.openPour (x : Die) (k : PourKey) (part : BitVec 4) (pl : Place) (slot : Nat) : Die :=
  if (x.pourAt k pl slot).isSome then x
  else
    let q : Pour := { key := k, part := part, place := pl, slot := slot, first := x.now, lastIn := x.now }
    let x := { x with aborts := x.aborts.filter fun r => r.key != k, pours := x.pours ++ [q] }
    x.givePot k part pl slot

/-- A packet of the packet buffer that a place takes in. -/
structure Parked where
  id : Nat
  seg : Nat
  cells : List (Nat × Nat)
  len : Nat

/-- An input of a pour that holds no pot stays in the packet buffer (R291); at a place without a pot too (DEDUCED, log entry 125). -/
def Pour.park (q : Pour) (w : Option Parked) (pos : Nat) : List Wait :=
  match w with
  | some w => if q.pot.isSome || q.started then q.waits
              else q.waits ++ [{ id := w.id, seg := w.seg, cells := w.cells, len := w.len, pos := pos }]
  | none => q.waits

/-- A place takes a packet, or a whole partial, of one input stream (R284, R285). -/
def Die.takeInput (x : Die) (k : PourKey) (part : BitVec 4) (pl : Place) (slot : Nat) (hd : BlendHead) (mark : Bool)
    (data : List Byte) (w : Option Parked) : Die :=
  (x.openPour k part pl slot).modPour k pl slot fun q =>
    let i := Map.lookD q.inputs hd.pos.toNat { pos := hd.pos.toNat }
    let i := { i with
      data := if data.isEmpty then i.data else Map.put i.data hd.offset.toNat data,
      last := i.last || hd.last, len := hd.pourLen.toNat, ovfRanks := hd.ovfRanks.toNat, ovfLow := hd.ovfLow.toNat,
      numFlags := i.numFlags ||| hd.flags, mark := i.mark || mark }
    { q with inputs := Map.put q.inputs hd.pos.toNat i, lastIn := x.now, waits := q.park w hd.pos.toNat }

/-! ### What a place passes on (R285) -/

/-- L: the largest `POUR_LEN` among the inputs. -/
def Pour.len (q : Pour) : Nat := q.inputs.foldl (fun n i => max n i.2.len) 0

/-- Ranks with dropped bytes, saturating at 4,095: the sum over the inputs; at delivery each slot carries that of the pour. -/
def Pour.ovfRanks (q : Pour) : Nat :=
  if q.place == .delivery then q.inputs.foldl (fun n i => max n i.2.ovfRanks) 0
  else min 4095 (q.inputs.foldl (fun n i => n + i.2.ovfRanks) 0)

/-- The lowest rank with dropped bytes. -/
def Pour.ovfLow (q : Pour) : Nat :=
  q.inputs.foldl (fun n i => if i.2.ovfRanks = 0 then n else min n i.2.ovfLow) 2047

/-- `NUM_FLAGS` of the inputs. -/
def Pour.flags (q : Pour) : Byte := q.inputs.foldl (fun f i => f ||| i.2.numFlags) 0

/-- The blend head of a stage's output. -/
def Pour.head (q : Pour) (kind : BitVec 3) (pos : Nat) (flags : Byte) : BlendHead :=
  { kind := kind, gather := q.key.gather, last := true, pos := BitVec.ofNat 11 pos, pourLen := BitVec.ofNat 20 q.len,
    ovfRanks := BitVec.ofNat 12 q.ovfRanks, ovfLow := if q.ovfRanks = 0 then 0 else BitVec.ofNat 11 q.ovfLow,
    flags := q.flags ||| flags }

/-! ### Contributions -/

/-- Input record of a contribution after one more packet: bytes beyond the capacity are dropped (R268). -/
def Input.add (i : Input) (cap : Nat) (data : List Byte) (last mark : Bool) : Input :=
  let keep := min data.length (cap - i.len)
  let dropped := i.dropped + (data.length - keep)
  { i with
    data := if keep = 0 then i.data else Map.put i.data i.len (data.take keep),
    last := last, len := i.len + keep, dropped := dropped, ovfRanks := if dropped = 0 then 0 else 1, ovfLow := i.rank,
    mark := i.mark || mark }

/-- A contribution packet at the home die of its block. -/
def Die.takeContribution (x : Die) (k : PourKey) (part : BitVec 4) (rank inPort cap : Nat) (data : List Byte) (last mark : Bool)
    (w : Option Parked) : Die :=
  let x := x.openPour k part .level1 0
  x.modPour k .level1 0 fun q =>
    let i := Map.lookD q.inputs (rank % 32) { pos := rank % 32, rank := rank, inPort := inPort }
    { q with inputs := Map.put q.inputs (rank % 32) (i.add cap data last mark), lastIn := x.now, waits := q.park w (rank % 32) }

/-- Contribution that a member has given so far at its entry die: bytes kept, and whether its run has ended. -/
def Die.runSoFar (x : Die) (k : PourKey) (rank : Nat) : Nat × Bool :=
  match x.relayUps.find? fun r => r.key == k && r.rank == rank with
  | some r => (r.kept, r.last)
  | none =>
    match x.pourAt k .level1 with
    | some q => (match Map.look q.inputs (rank % 32) with | some i => (i.len, i.last) | none => (0, false))
    | none => (0, false)

/-- Relay one contribution packet to the home die (R286, R287): its kept bytes follow the blend head of `KIND` 4. -/
def State.relayUp (s : State) (d : DieId) (p : Nat) (k : PourKey) (part : BitVec 4) (rank home cap : Nat) (data : List Byte)
    (last mark : Bool) : State :=
  let x := s.die d
  let r := (x.relayUps.find? fun r => r.key == k && r.rank == rank).getD { key := k, rank := rank, inPort := p }
  let keep := min data.length (cap - r.kept)
  let r' := { r with kept := r.kept + keep, dropped := r.dropped + (data.length - keep), last := last }
  let s := s.modDie d fun x => { x with relayUps := (x.relayUps.filter fun q => !(q.key == k && q.rank == rank)) ++ [r'] }
  match s.relayPort d k part.toNat 1 home with
  | none => s.modDie d fun x => x.discard (treeHdr k part 1 (some home) 0 false) (cPart 6 2 part.toNat) true
  | some port =>
    let hd : BlendHead :=
      { kind := 4, gather := k.gather, last := last, pos := BitVec.ofNat 11 rank, pourLen := BitVec.ofNat 20 r'.kept,
        ovfRanks := if r'.dropped = 0 then 0 else 1, ovfLow := if r'.dropped = 0 then 0 else BitVec.ofNat 11 rank }
    s.modDie d fun x =>
      (x.noteRelay k 1 home port).sendStream port k part 1 (some home) hd r.kept (data.take keep) mark none

/-- Note in the record of an aborted pour that a member's completion word has been sent (R293). -/
def Die.tell (x : Die) (k : PourKey) (rank : Nat) : Die :=
  { x with aborts := x.aborts.map fun q => if q.key == k then { q with told := q.told ++ [rank] } else q }

/-- A packet of a pour that the die has recorded as aborted is discarded; the last packet of a member's run brings the member its
completion word, once (R271, R293). -/
def State.lateContribution (s : State) (d : DieId) (h : Hdr) (k : PourKey) (r : AbortRec) (rank : Nat) : State :=
  let s := s.modDie d fun x => x.discard h (cPart 11 1 h.part.toNat)
  if h.len = 4096 || r.told.contains rank then s
  else
    (s.modDie d fun x => x.tell k rank).sendMember d k h.part rank h.src none
      (completionWord k.pour k.group r.status k.gather 0 0 0 0 0) (r.mark || h.mark) none

/-- CONTRIB or GATHER_IN from an endpoint (R265 to R271). A run whose `DST` differs from its `SRC`, which R266 forbids the endpoint, is taken
by its `SRC` (DESIGN CHOICE, log entry 126). -/
def State.contribute (s : State) (d : DieId) (p : Nat) (h : Hdr) (data : List Byte) (w : Option Parked) : State :=
  let x := s.die d
  let g := x.view.group h.group.toNat
  let c := g.control
  let k : PourKey := { group := h.group, gather := h.type = 0x09, pour := h.pour }
  let closed : State := s.modDie d fun x => x.discard h (cPart 11 0 h.part.toNat)
  if !gValid c || gPart c ≠ h.part.toNat then closed
  else match s.rankOf d c h.src with
    | none => closed
    | some rank =>
      match x.record k, g.home (rank / 32) with
      | _, none => closed
      | rec?, some home =>
        let late := match rec? with | some r => if r.status = 0 then none else some r | none => none
        match late with
        | some r => s.lateContribution d h k r rank
        | none =>
          let run := x.runSoFar k rank
          if run.2 then closed
          else
            let cap := capacity c k.gather
            let past := data.length - min data.length (cap - run.1)
            let last := h.len ≠ 4096
            let s := if past = 0 then s else s.modDie d fun x => x.count (ctrKey 11 p 0 0 4) past
            if home = s.leafIndex d then
              s.modDie d fun x => x.takeContribution k h.part rank p cap data last h.mark w
            else s.relayUp d p k h.part rank home cap data last h.mark

/-! ### Stages -/

/-- Bytes of an input in one run: the piece at each offset, with zero bytes between. -/
def Input.bytes (i : Input) : List Byte := i.data.foldl (fun l e => padTo e.1 l ++ e.2) []

/-- The stream of pieces of one sender to one receiver, each at its own offset; `LAST` on the final one, and an empty piece at
`none` when there are none (R284). -/
def Die.sendPieces (x : Die) (port : Nat) (k : PourKey) (part : BitVec 4) (vc : Nat) (far : Option Nat) (hd : BlendHead)
    (none_ : Nat) (pieces : List (Nat × List Byte)) (mark : Bool) (place : Option (PourKey × Place)) : Die :=
  let ps := if pieces.isEmpty then [(none_, [])] else pieces
  (List.range ps.length).foldl (fun (y : Die) i =>
    let e := ps.getD i (0, [])
    y.sendStream port k part vc far { hd with last := decide (i + 1 = ps.length) } e.1 e.2 mark place) x

/-- Tray sets and blocks of a set. -/
def setBlocks (c : BitVec 128) (t : Nat) : List Nat :=
  (List.range 4).filterMap fun i => if 4 * t + i < gBlocks c then some (4 * t + i) else none

/-- Every sender that a place expects has sent its last packet (R284). -/
def Pour.complete (q : Pour) (c : BitVec 128) : Bool :=
  match q.place with
  | .level1 => (blockRanks c (gHomeBlock c)).all fun r => q.has (r % 32)
  | .level2 => (setBlocks c (gRootSet c)).all fun b => q.has b
  | .level3 => (List.range (gSets c)).all fun t => q.has t
  | .delivery => (List.range 32).all fun n => q.has n

/-- The contribution at a position. -/
def Pour.contribution (q : Pour) (p : Nat) : Option (List Byte) := (Map.look q.inputs p).map Input.bytes

/-- Level 1: the block partial, or the concatenated contributions, with the flags raised (Table 07-3, R269, R313). -/
def Pour.blockPartial (q : Pour) (g : Group) : List Byte × Byte :=
  let c := g.control
  if q.key.gather then
    ((blockRanks c (gHomeBlock c)).flatMap fun r => padTo q.len ((q.contribution (r % 32)).getD []), 0)
  else
    let v := level1 (gOp c) (gFmt c) g.weight q.contribution (elemCount (gFmt c) q.len)
    (valueBytes v, allFlags v)

/-- A reduce-scatter partial made up to `n` elements with padding values (R309). -/
def padPart (c : BitVec 128) (n : Nat) (bs : List Byte) : List Byte :=
  bs ++ (List.replicate (n - bs.length / 4) (le 4 (padValue (gOp c) (gFmt c)).toNat)).flatten

/-- Contributions of equal length `old` spread to length `new` with zero bytes (R269). -/
def respread (old new n : Nat) (bs : List Byte) : List Byte :=
  (List.range n).flatMap fun i => padTo new ((bs.drop (i * old)).take old)

/-- Elements of a slice (R278). -/
def sliceElems (c : BitVec 128) : Nat := 256 / elemSize (gOut c)

/-- Level 2: the tray-set partial, or the tray set's part of G, with the flags raised. -/
def Pour.setPartial (q : Pour) (c : BitVec 128) : List Byte × Byte :=
  let blocks := setBlocks c (gRootSet c)
  if q.key.gather then
    (blocks.flatMap fun b => match Map.look q.inputs b with
      | some i => respread i.len q.len (blockRanks c b).length i.bytes
      | none => [], 0)
  else
    let n := elemCount (gFmt c) q.len
    let v := combineParts (gOp c) (gFmt c) (blocks.map fun b => padPart c n ((q.contribution b).getD [])) n
    (valueBytes v, allFlags v)

/-- Pieces of a tray-set partial for a slot (R278): offset within the partial, or within G. -/
def slotPieces (c : BitVec 128) (gather : Bool) (len slot : Nat) (bs : List Byte) : List (Nat × List Byte) :=
  let unit := if gather then 256 else 4 * sliceElems c
  let base := if gather then 128 * gRootSet c * len else 0
  let hi := base + bs.length
  let first := base / unit
  (List.range (ceilDiv hi unit - first)).filterMap fun i =>
    let j := first + i
    if j % 32 = slot then
      let lo := max (j * unit) base
      some (lo, (bs.drop (lo - base)).take (min ((j + 1) * unit) hi - lo))
    else none

/-- The slot of a tray-set partial's packet, from its offset. -/
def slotOf (c : BitVec 128) (gather : Bool) (offset : Nat) : Nat :=
  offset / (if gather then 256 else 4 * sliceElems c) % 32

/-- A piece of G for contributions of length `old`, cut and moved to where they lie at length `new` (R277). -/
def movePiece (old new : Nat) (e : Nat × List Byte) : List (Nat × List Byte) :=
  if old = new || old = 0 then [e]
  else
    let r := e.1 / old
    (List.range (ceilDiv (e.1 % old + e.2.length) old)).map fun i =>
      let lo := max (old * (r + i)) e.1
      let hi := min (old * (r + i + 1)) (e.1 + e.2.length)
      ((r + i) * new + lo % old, (e.2.drop (lo - e.1)).take (hi - lo))

/-- Level 3: the pieces of the output vector, or of G, of a slot, with the flags raised (R274, R276, R277, R313). -/
def Pour.slotOutput (q : Pour) (c : BitVec 128) : List (Nat × List Byte) × Byte :=
  if q.key.gather then
    (q.inputs.flatMap fun i => i.2.data.flatMap fun e => movePiece i.2.len q.len e, 0)
  else
    let n := elemCount (gFmt c) q.len
    let per := sliceElems c
    let slices := (List.range (ceilDiv n per)).filter fun j => j % 32 == q.slot
    let one (j : Nat) : Nat × List Byte × Byte :=
      let m := min per (n - j * per)
      let parts := (List.range (gSets c)).map fun t =>
        padPart c m (match Map.look q.inputs t with | some i => Map.lookD i.data (4 * j * per) [] | none => [])
      let o := outBytes (gOut c) (combineParts (gOp c) (gFmt c) parts m)
      (256 * j, o.1, o.2)
    let l := slices.map one
    (l.map fun e => (e.1, e.2.1), l.foldl (fun f e => f ||| e.2.2) 0)

/-- Bytes of each rank's share (R276). -/
def shareBytes (c : BitVec 128) (len : Nat) : Nat := 4 * ceilDiv (outLen (gFmt c) (gOut c) len) (4 * gRanks c)

/-- The part of a slot's pieces that a home die needs: the shares of its block, or all of G. -/
def piecesFor (c : BitVec 128) (gather : Bool) (len b : Nat) (ps : List (Nat × List Byte)) : List (Nat × List Byte) :=
  if gather then ps
  else
    let lo := 32 * b * shareBytes c len
    let hi := 32 * (b + 1) * shareBytes c len
    ps.filterMap fun e =>
      let a := max lo e.1
      let z := min hi (e.1 + e.2.length)
      if a < z then some (a, (e.2.drop (a - e.1)).take (z - a)) else none

/-- The bytes of the output vector, or of G, that a home die has received. -/
def Pour.gathered (q : Pour) : List (Nat × List Byte) := q.inputs.flatMap fun i => i.2.data

/-- Bytes [lo, hi) from pieces, zero where none lies. -/
def cutPieces (ps : List (Nat × List Byte)) (lo hi : Nat) : List Byte :=
  (List.range (hi - lo)).map fun i =>
    match ps.find? fun e => decide (e.1 ≤ lo + i) && decide (lo + i < e.1 + e.2.length) with
    | some e => e.2.getD (lo + i - e.1) 0
    | none => 0

/-- The stage of a pour has started: its inputs have left the packet buffer and their data is used. -/
def Pour.start (q : Pour) : Pour :=
  { q with started := true, waits := [], inputs := Map.mapVal q.inputs fun _ i => { i with data := [] } }

/-- The stage of level 1: the block partial goes to the root die (Table 07-5). -/
def State.stage1 (s : State) (d : DieId) (q : Pour) : State :=
  let g := (s.die d).view.group q.key.group.toNat
  let b := gHomeBlock g.control
  let o := q.blockPartial g
  let hd := q.head 1 b o.2
  let own := s.leafIndex d
  match g.rootLeaf (b / 4) with
  | none => s.abortPour d q.key 4
  | some root =>
    let s := s.modDie d fun x => x.modPour q.key .level1 0 Pour.start
    let near := decide (root / 4 = own / 4)
    if root = own then
      s.modDie d fun x => (x.takeInput q.key q.part .level2 0 hd q.mark o.1 none).placeDone q.key .level1
    else match (if near then (s.die d).bridgeTo d (siblingOf root) 1 else s.relayPort d q.key q.part.toNat 1 root) with
      | none => s.abortPour d q.key 4
      | some port => s.modDie d fun x =>
          (if near then x else x.noteRelay q.key 1 root port).sendStream port q.key q.part 1 (some root) hd 0 o.1
            q.mark (some (q.key, .level1))

/-- The stage of level 2: each slot's part of the partial goes to its serving spine die (R278 to R280). -/
def State.stage2 (s : State) (d : DieId) (q : Pour) : State :=
  let x := s.die d
  let c := (x.view.group q.key.group.toNat).control
  let o := q.setPartial c
  let hd := q.head 2 (gRootSet c) o.2
  let ports := (List.range 32).map fun n => (servingSpine x.view.collOut (gAlt c) n).map (32 + ·)
  let down := ports.any fun p => match p with | some p => !x.ok p | none => true
  if down then s.abortPour d q.key 3
  else
    let unit := if q.key.gather then 256 else 4 * sliceElems c
    s.modDie d fun x =>
      let x := x.modPour q.key .level2 0 Pour.start
      (List.range 32).foldl (fun (y : Die) n =>
        y.sendPieces ((ports.getD n none).getD 32) q.key q.part 1 none hd (unit * n) (slotPieces c q.key.gather q.len n o.1) q.mark
          (some (q.key, .level2))) x

/-- The stage of level 3: each home die receives its part of the slot, or an empty `LAST` head. -/
def State.stage3 (s : State) (d : DieId) (q : Pour) : State :=
  let x := s.die d
  let g := x.view.group q.key.group.toNat
  let c := g.control
  let o := q.slotOutput c
  let hd := q.head 3 q.slot o.2
  let homes := (List.range (gBlocks c)).filterMap fun b => (g.home b).map fun l => (b, l)
  if homes.any fun e => (x.downTo e.2).isNone then s.abortPour d q.key 3
  else s.modDie d fun x =>
    let x := x.modPour q.key .level3 q.slot Pour.start
    homes.foldl (fun (y : Die) e =>
      y.sendPieces ((x.downTo e.2).getD 0) q.key q.part 2 (some e.2) hd (256 * q.slot)
        (piecesFor c q.key.gather q.len e.1 o.1) q.mark (some (q.key, .level3))) x

/-- The completion word of a member (Table 07-7). -/
def Pour.word (q : Pour) (dropped : Nat) : BitVec 128 :=
  completionWord q.key.pour q.key.group (if q.ovfRanks = 0 then 0 else 1) q.key.gather (BitVec.ofNat 20 q.len)
    (BitVec.ofNat 20 (min dropped 1048575)) (BitVec.ofNat 12 q.ovfRanks)
    (if q.ovfRanks = 0 then 0 else BitVec.ofNat 11 q.ovfLow) q.flags

/-- Delivery: each member of the block receives its result and its completion word (R276, R277, R292, R293). -/
def State.deliver4 (s : State) (d : DieId) (q : Pour) : State :=
  let x := s.die d
  let c := (x.view.group q.key.group.toNat).control
  let ps := q.gathered
  let share := shareBytes c q.len
  let total := outLen (gFmt c) (gOut c) q.len
  let ins := match x.pourAt q.key .level1 with | some r => r.inputs | none => []
  let s := s.modDie d fun x => x.modPour q.key .delivery 0 Pour.start
  let s := (blockRanks c (gHomeBlock c)).foldl (fun (t : State) r =>
    let res := if q.key.gather then cutPieces ps 0 (gRanks c * q.len)
      else cutPieces ps (min (r * share) total) (min ((r + 1) * share) total)
    let dropped := match Map.look ins (r % 32) with | some i => i.dropped | none => 0
    match t.memberOf d c r with
    | some ep => t.sendMember d q.key q.part r ep (some res) (q.word dropped) q.mark (some (q.key, .delivery))
    | none => t) s
  s.modDie d fun x => x.placeDone q.key .delivery

/-- Run the stage of a place. -/
def State.runStage (s : State) (d : DieId) (q : Pour) : State :=
  match q.place with
  | .level1 => s.stage1 d q
  | .level2 => s.stage2 d q
  | .level3 => s.stage3 d q
  | .delivery => s.deliver4 d q

/-- The pour waits for a pot: counted once, as a stall while a pot of the place is being zeroed, as a wait otherwise (R291). -/
def Die.waitPot (x : Die) (q : Pour) : Die :=
  if q.stalled then x
  else
    let zeroing := (x.placePots q.key q.part q.place).any fun n => (x.pot n).zeroing
    (x.count (cPart 11 (if zeroing then 2 else 3) q.part.toNat)).modPour q.key q.place q.slot fun r => { r with stalled := true }

/-- A stage has slipped: it starts later than the boundary after its first input, or the sending places, on other dies, started theirs
still earlier than that input came, which is a free value to this die (R80, R297; log entry 53). -/
def State.slipped (s : State) (d : DieId) (q : Pour) : Bool :=
  (s.die d).now != q.first + 1 || (q.place != .level1 && Config.senderLate s.free)

/-- Start the stage of a pour at a boundary when its inputs and its pot are there; a slipped one is counted (R80, R289, R291, R297). -/
def State.startStage (s : State) (d : DieId) (k : PourKey) (pl : Place) (slot : Nat) : State :=
  let x := s.die d
  let c := (x.view.group k.group.toNat).control
  match x.pourAt k pl slot with
  | none => s
  | some q =>
    if q.started || !q.complete c || !later x.now q.lastIn then s
    else
      let s := s.modDie d fun x => x.givePot k q.part pl slot true
      match (s.die d).pourAt k pl slot with
      | none => s
      | some q =>
        if needsPot k pl && q.pot.isNone then s.modDie d fun x => x.waitPot q
        else
          let n := (s.slipped d q).toNat
          ({ (s.modDie d fun x => x.count (cDie 4 1) n) with free := s.free + 1 }).runStage d q

/-! ### Relays -/

/-- Hand a member of this die the result and completion word that its home die relayed, unless this die has sent it the word of an
abort; `OWN_DROP` is this die's count (R268, R292, R293). -/
def State.relayedResult (s : State) (d : DieId) (k : PourKey) (part : BitVec 4) (rank : Nat) (bytes : List Byte) (mark : Bool) :
    State :=
  let x := s.die d
  let c := (x.view.group k.group.toNat).control
  let n := bytes.length - 16
  let w : BitVec 128 := BitVec.ofNat 128 (leNat (bytes.drop n))
  let dropped := match x.relayUps.find? fun r => r.key == k && r.rank == rank with | some r => r.dropped | none => 0
  let w := setFld w 64 20 (BitVec.ofNat 20 (min dropped 1048575))
  let valid := (fld w 32 4).toNat < 2
  let told := match x.record k with | some r => r.status != 0 && r.told.contains rank | none => false
  let s := s.modDie d fun x => { x with relayUps := x.relayUps.filter fun r => !(r.key == k && r.rank == rank),
                                        relays := x.relays.filter fun r => r.key != k }
  match s.memberOf d c rank with
  | some ep =>
    if leafOf ep = s.leafIndex d && !told then
      (s.modDie d fun x => x.tell k rank).sendMember d k part rank ep (if valid then some (bytes.take n) else none) w mark none
    else s
  | none => s

/-- A packet of a relayed result (`KIND` 5). -/
def State.relayDown (s : State) (d : DieId) (k : PourKey) (part : BitVec 4) (hd : BlendHead) (data : List Byte) (mark : Bool) : State :=
  let rank := hd.pos.toNat
  let mine (r : RelayDown) : Bool := r.key == k && r.rank == rank
  let r := ((s.die d).relayDowns.find? mine).getD { key := k, rank := rank, data := [] }
  let r := { r with data := r.data ++ data, mark := r.mark || mark }
  let s := s.modDie d fun x => { x with relayDowns := x.relayDowns.filter fun r => !mine r }
  if hd.last then s.relayedResult d k part rank r.data r.mark
  else s.modDie d fun x => { x with relayDowns := x.relayDowns ++ [r] }

/-- A packet of a relayed contribution at the home die (`KIND` 4). -/
def Die.relayedInput (x : Die) (k : PourKey) (part : BitVec 4) (p : Nat) (hd : BlendHead) (data : List Byte) (mark : Bool)
    (w : Option Parked) : Die :=
  let rank := hd.pos.toNat
  let x := x.openPour k part .level1 0
  x.modPour k .level1 0 fun q =>
    let i := Map.lookD q.inputs (rank % 32) { pos := rank % 32, rank := rank, inPort := p }
    let i := { i with
      data := if data.isEmpty then i.data else Map.put i.data hd.offset.toNat data, last := i.last || hd.last,
      len := hd.pourLen.toNat, ovfRanks := hd.ovfRanks.toNat, ovfLow := rank, mark := i.mark || mark }
    { q with inputs := Map.put q.inputs (rank % 32) i, lastIn := x.now, waits := q.park w (rank % 32) }

/-- A packet of a relayed contribution to a pour that its home die has recorded as aborted: discarded; the last one of a run brings the
member its completion word, once (R271, R293). -/
def State.lateRelay (s : State) (d : DieId) (k : PourKey) (part : BitVec 4) (h : Hdr) (hd : BlendHead) (r : AbortRec) : State :=
  let rank := hd.pos.toNat
  let c := ((s.die d).view.group k.group.toNat).control
  let s := s.modDie d fun x => x.discard h (cPart 11 1 part.toNat)
  if hd.last && !r.told.contains rank then
    match s.memberOf d c rank with
    | some ep =>
      (s.modDie d fun x => x.tell k rank).sendMember d k part rank ep none
        (completionWord k.pour k.group r.status k.gather 0 0 0 0 0) (r.mark || h.mark) none
    | none => s
  else s

/-! ### Abort heads -/

/-- The delivery of a pour has all it needs and starts at this boundary (R294). -/
def Die.deliveryReady (x : Die) (k : PourKey) : Bool :=
  match x.pourAt k .delivery with
  | some q => q.complete (x.view.group k.group.toNat).control && (q.pot.isSome || (x.findPot k q.part .delivery true).isSome)
  | none => false

/-- An abort head (R294): a spine die passes it down, and a root die that it reaches from a home die passes it up. A home die ends the
pour at the boundary after it has accepted the head (`State.settleAborts`). -/
def State.abortIn (s : State) (d : DieId) (k : PourKey) (h : Hdr) (status : BitVec 4) : State :=
  let heads := s.isSpine || h.vc == 1
  if gHomeValid ((s.die d).view.group k.group.toNat).control then
    s.modDie d fun x => { x with abortDue := x.abortDue ++ [(k, status, h.mark, heads)] }
  else s.abortPour d k status heads h.mark

/-- The boundary after a home die has accepted an abort head: a delivery that starts at this boundary, or has started, keeps its result;
otherwise the pour ends (R294). -/
def State.settleAborts (s : State) (d : DieId) : State :=
  let l := (s.die d).abortDue
  if l.isEmpty then s
  else l.foldl (fun (t : State) e => if (t.die d).deliveryReady e.1 then t else t.abortPour d e.1 e.2.1 e.2.2.2 e.2.2.1)
    (s.modDie d fun x => { x with abortDue := [] })

/-! ### Packets between dies -/

/-- Port by which a packet between dies goes on (Table 07-5): from a spine die down to its leaf die, from a leaf die that a spine die
sends a packet of VC2 for a sibling over the bridge. -/
def State.passTo (s : State) (d : DieId) (p vc : Nat) (l : Nat) : Option Nat :=
  let x := s.die d
  if s.isSpine then (if x.ok l then some l else none)
  else if vc = 2 && s.isUp p && decide (l / 4 = s.leafIndex d / 4) then x.bridgeTo d (siblingOf l) vc else none

/-- A packet with a blend head that is not for this die (R286): relays at a spine die, and packets for another die at a leaf die. -/
def State.passes (s : State) (d : DieId) (h : Hdr) (hd : BlendHead) : Bool :=
  if s.isSpine then hd.kind = 1 || hd.kind = 4 || hd.kind = 5 else leafOf h.dst ≠ s.leafIndex d

/-- A packet with a blend head taken in at its die (R284, R286). -/
def State.blendIn (s : State) (d : DieId) (p : Nat) (h : Hdr) (hd : BlendHead) (data : List Byte) (w : Option Parked) : State :=
  let x := s.die d
  let c := (x.view.group h.group.toNat).control
  let k : PourKey := { group := h.group, gather := hd.gather, pour := h.pour }
  let aborted : Option AbortRec := (x.record k).filter fun r => r.status != 0
  match hd.kind.toNat, aborted with
  | 6, _ => s.abortIn d k h hd.abort
  | 5, _ => s.relayDown d k h.part hd data h.mark
  | 4, some r => s.lateRelay d k h.part h hd r
  | _, some _ => s.modDie d fun x => x.discard h (cPart 11 1 h.part.toNat)
  | 1, none => s.modDie d fun x => x.takeInput k h.part .level2 0 hd h.mark data w
  | 2, none => s.modDie d fun x => x.takeInput k h.part .level3 (slotOf c k.gather hd.offset.toNat) hd h.mark data w
  | 3, none => s.modDie d fun x => x.takeInput k h.part .delivery 0 hd h.mark data w
  | 4, none => s.modDie d fun x => x.relayedInput k h.part p hd data h.mark w
  | _, none => s.modDie d fun x => x.discard h (cPart 11 0 h.part.toNat)

end Sys2Proof.Machine
end

