-- ==== Sys2Proof/Machine/LineCode.lean ====
section
/-! DEFINITION. What a port's lanes carry (spec/04 R120 to R131): PAM4 levels, the RS(544,514) code of external links, the frames of
bridge links, blocks, and the tick frame of Table 04-1. The standard that R121 names is followed for what the manual does not print
(PRESUMED, log entry 116): GF(2^10) with x^10 + x^3 + 1, a generator polynomial with the roots alpha^0 to alpha^29, the symbol of the
highest power first, and the least significant bit of a symbol first. -/

namespace Sys2Proof.Machine

/-! ### Bits and PAM4 levels -/

/-- The bits of a word, least significant first. -/
def bitList {n : Nat} (w : BitVec n) : List Bool := (List.range n).map fun i => w.getLsbD i

/-- A number from its bits, least significant first. -/
def bitsNat (l : List Bool) : Nat := l.foldr (fun b n => (if b then 1 else 0) + 2 * n) 0

/-- A list cut into `n` pieces of `k`. -/
def pieces {α : Type} (k : Nat) : Nat → List α → List (List α)
  | 0, _ => []
  | n + 1, l => l.take k :: pieces k n (l.drop k)

/-- Level of two successive bits under Gray coding: 00, 01, 11, 10 are levels 0 to 3 (R120). -/
def grayLevel (a b : Bool) : BitVec 2 := b1 a ++ b1 (a != b)

/-- The two bits of a level. -/
def grayBits (v : BitVec 2) : List Bool := [bit v 1, bit v 1 != bit v 0]

/-- The levels that carry a list of bits. -/
def levelsOf : List Bool → List (BitVec 2)
  | a :: b :: r => grayLevel a b :: levelsOf r
  | _ => []

/-! ### The field of the code -/

/-- Twice a field element. -/
def gfDouble (a : Nat) : Nat := if 2 * a < 1024 then 2 * a else (2 * a) ^^^ 0x409

/-- The product of two field elements. -/
def gfMul (a b : Nat) : Nat :=
  (List.range 10).foldr (fun i n => if b.testBit i then gfDouble n ^^^ a else gfDouble n) 0

/-- alpha^i. -/
def gfPow : Nat → Nat
  | 0 => 1
  | i + 1 => gfDouble (gfPow i)

/-- `a` to the power 2^1 + ... + 2^n. -/
def gfSquares : Nat → Nat → Nat
  | 0, _ => 1
  | n + 1, a => gfMul (gfMul a a) (gfSquares n (gfMul a a))

/-- The inverse of a field element: its 1,022nd power. -/
def gfInv (a : Nat) : Nat := gfSquares 9 a

/-- Value of a polynomial at `x`; coefficients from the highest power down. -/
def gfEval (p : List Nat) (x : Nat) : Nat := p.foldl (fun n c => gfMul n x ^^^ c) 0

/-- Sum of two polynomials; coefficients from the lowest power up. -/
def gfAdd : List Nat → List Nat → List Nat
  | [], q => q
  | p, [] => p
  | a :: p, b :: q => (a ^^^ b) :: gfAdd p q

/-! ### RS(544,514) (R121) -/

/-- The generator polynomial without its leading 1, from the power 29 down. -/
def rsGenerator : List Nat :=
  ((List.range 30).foldl (fun g i =>
    gfAdd (0 :: g) (g.map (gfMul (gfPow i)))) [1]).dropLast.reverse

/-- The 30 parity symbols of a message. -/
def rsParity (msg : List Nat) : List Nat :=
  msg.foldl (fun r m => let f := m ^^^ r.headD 0; List.zipWith (· ^^^ ·) (r.tail ++ [0]) (rsGenerator.map (gfMul f)))
    (List.replicate 30 0)

/-- The syndromes of a received word. -/
def rsSyndromes (w : List Nat) : List Nat := (List.range 30).map fun i => gfEval w (gfPow i)

/-- The search for an error locator: the locator and the one before its last change of length, lowest power first. -/
structure RsSearch where
  cur : List Nat := [1]
  old : List Nat := [1]
  len : Nat := 0
  shift : Nat := 1
  disc : Nat := 1

/-- One step of the search (Berlekamp and Massey) at syndrome `n`. -/
def RsSearch.step (syn : List Nat) (s : RsSearch) (n : Nat) : RsSearch :=
  let d := (List.range (s.len + 1)).foldl (fun v i => v ^^^ gfMul (s.cur.getD i 0) (syn.getD (n - i) 0)) 0
  if d = 0 then { s with shift := s.shift + 1 }
  else
    let f := gfMul d (gfInv s.disc)
    let next := gfAdd s.cur (List.replicate s.shift 0 ++ s.old.map (gfMul f))
    if 2 * s.len ≤ n then { cur := next, old := s.cur, len := n + 1 - s.len, shift := 1, disc := d }
    else { s with cur := next, shift := s.shift + 1 }

/-- The error locator of a received word, lowest power first, and its number of errors. -/
def rsLocator (syn : List Nat) : List Nat × Nat :=
  let s := (List.range 30).foldl (RsSearch.step syn) {}
  (s.cur, s.len)

/-- Value of a symbol's error: Forney's formula at the symbol of power `k`. -/
def rsError (syn loc : List Nat) (k : Nat) : Nat :=
  let inv := gfInv (gfPow k)
  let omega := (List.range 30).map fun n => (List.range (n + 1)).foldl (fun v i => v ^^^ gfMul (loc.getD i 0) (syn.getD (n - i) 0)) 0
  let odd := (List.range 15).map fun i => loc.getD (2 * i + 1) 0
  gfMul (gfPow k) (gfMul (gfEval omega.reverse inv) (gfInv (gfEval odd.reverse (gfMul inv inv))))

/-- The word that a receiver decodes: up to 15 symbol errors are corrected; none where the word lies within 15 of no codeword
(R121). -/
def rsDecode (w : List Nat) : Option (List Nat) :=
  let syn := rsSyndromes w
  if w.length ≠ 544 then none
  else if syn.all (· == 0) then some (w.take 514)
  else
    let l := rsLocator syn
    let bad := (List.range 544).filter fun i => gfEval l.1.reverse (gfInv (gfPow (543 - i))) == 0
    if 15 < l.2 || bad.length ≠ l.2 then none
    else
      let fixed := (List.range 544).map fun i =>
        if bad.contains i then w.getD i 0 ^^^ rsError syn l.1 (543 - i) else w.getD i 0
      if (rsSyndromes fixed).all (· == 0) then some (fixed.take 514) else none

/-! ### Blocks and codewords (R123, R130, R131) -/

/-- A block of 32 bytes. -/
inductive Block where
  | data (b : BitVec 256)
  | control (first second : CtlWord)
deriving DecidableEq, Repr

/-- The 257 bits of a block: its type, and 32 bytes, the first byte and the least significant bit first (R123). -/
def Block.bits : Block → List Bool
  | .data b => false :: bitList b
  | .control u v => true :: (bitList u ++ bitList v)

/-- A block from its bits. -/
def Block.ofBits (l : List Bool) : Block :=
  let w := BitVec.ofNat 256 (bitsNat (l.drop 1))
  if l.headD false then .control (fld w 0 128) (fld w 128 128) else .data w

/-- IDLE (Table 04-2). -/
def idleWord : CtlWord := cword 0xA0 0

/-- FILL (Table 04-3). -/
def fillWord (n : BitVec 3) : CtlWord := cword 0xA4 (0#101 ++ n)

/-- Words in control blocks of two, the last filled up with IDLE (R131). -/
def controlBlocks : List CtlWord → List Block
  | [] => []
  | [u] => [.control u idleWord]
  | u :: v :: r => .control u v :: controlBlocks r

/-- The 544 symbols of a codeword of 20 blocks (R121, R123). -/
def codeword (bs : List Block) : List Nat :=
  let msg := (pieces 10 514 (bs.flatMap Block.bits)).map bitsNat
  msg ++ rsParity msg

/-- CRC-32C over bits, the form of R91. -/
def crcBits (l : List Bool) : BitVec 32 :=
  BitVec.ofNat 32 ((l.foldl (fun c b => crc32Step (c ^^^ (if b then 1 else 0))) 0xFFFFFFFF) ^^^ 0xFFFFFFFF)

/-- The 5,172 bits of a bridge frame: 20 blocks and their CRC-32C (R130). -/
def bridgeFrame (bs : List Block) : List Bool :=
  let m := bs.flatMap Block.bits
  m ++ bitList (crcBits m)

/-- A codeword on `n` lanes: symbols go round robin over them, symbol 0 on the first (R124). -/
def laneSymbols (n : Nat) (w : List Nat) : List (List Nat) :=
  (List.range n).map fun j => (List.range (544 / n)).map fun i => w.getD (n * i + j) 0

/-- The levels of a lane's symbols. -/
def symbolLevels (l : List Nat) : List (BitVec 2) := levelsOf (l.flatMap fun v => bitList (BitVec.ofNat 10 v))

/-- A codeword as its levels on `n` lanes. -/
def codewordLevels (n : Nat) (bs : List Block) : List (List (BitVec 2)) := (laneSymbols n (codeword bs)).map symbolLevels

/-! ### Receiving -/

/-- The blocks of a codeword or bridge frame that reached the port, or none when it does not decode (R121, R124, R130, R141): the
receiver undoes the lane order and the polarity that training found. -/
def Port.receive (q : Port) (p : Nat) (l : Line) : Option (List Block) :=
  match l with
  | .code levels =>
    if 64 ≤ p then none
    else
      let lane (i : Nat) : List Nat :=
        let j := if bit q.laneMap 4 then 3 - i else i
        let bits := (levels.getD j []).flatMap fun v => grayBits (if bit q.laneMap j then 3 - v else v)
        (pieces 10 (bits.length / 10) bits).map bitsNat
      let lanes := (bitsOf q.lanes).map lane
      let n := lanes.length
      if n = 0 then none
      else if !lanes.all fun s => s.length == 544 / n then none
      else
        (rsDecode ((List.range 544).map fun i => (lanes.getD (i % n) []).getD (i / n) 0)).map fun w =>
          (pieces 257 20 (w.flatMap fun v => bitList (BitVec.ofNat 10 v))).map Block.ofBits
  | .frame bits =>
    if p < 64 || bits.length ≠ 5172 then none
    else if bits.drop 5140 == bitList (crcBits (bits.take 5140)) then some ((pieces 257 20 (bits.take 5140)).map Block.ofBits)
    else none

/-! ### The tick frame (R125 to R127, Table 04-1) -/

/-- Line rate of a port in Gb/s (R120). -/
def lineRate (width : Nat) (fullRate : Bool) : Nat := if fullRate then 224 * width else 106 * width

/-- Codewords per tick of an external port (Table 04-1), and bridge frames per tick of a bridge port (R130). -/
def codewordsOf (ns p width : Nat) (fullRate : Bool) : Nat :=
  if 64 ≤ p then (if ns = 200 then 34 else if ns = 800 then 138 else 68)
  else lineRate width fullRate * ns / 5440

/-- The nominal pad in bits over all lanes (Table 04-1): what the codewords leave of a tick. -/
def padBits (ns p width : Nat) (fullRate : Bool) : Nat :=
  lineRate width fullRate * ns - codewordsOf ns p width fullRate * (if 64 ≤ p then 5172 else 5440)

/-- The last 32 UI of the pad on every lane (R126). -/
def padEnd : List (BitVec 2) := (List.replicate 4 ([3, 3, 3, 3, 0, 0, 0, 0] : List (BitVec 2))).flatten

/-- A pad of `ui` unit intervals on a lane: levels 0 and 3 alternating, and the closing sequence (R126). -/
def padLevels (ui : Nat) : List (BitVec 2) := (List.range (ui - 32)).map (fun i => if i % 2 = 0 then 0 else 3) ++ padEnd

/-- The receiver takes the first codeword of a tick to start at the end of the closing sequence (R126). -/
def afterPad : List (BitVec 2) → Option (List (BitVec 2))
  | [] => none
  | v :: r => if (v :: r).take 32 == padEnd then some ((v :: r).drop 32) else afterPad r

/-- The pad of a port on each of its lanes at its width and rate. -/
def Port.pad (q : Port) (ns p : Nat) : List (BitVec 2) := padLevels (padBits ns p (popCount q.lanes) q.fullRate / (2 * popCount q.lanes))

/-- The blocks that carry a port's control words and data blocks in the order in which they were sent: words that follow one another
go in pairs, and a FILL word is the first of its control block (R129, R131). -/
def lineBlocks (p : Nat) (d : DieId) (ws : List CtlWord) : List Out → List Block
  | [] => controlBlocks ws
  | .word e n w :: r => if e = d ∧ n = p then lineBlocks p d (ws ++ [w]) r else lineBlocks p d ws r
  | .block e n _ b :: r => if e = d ∧ n = p then controlBlocks ws ++ .data b.bytes :: lineBlocks p d [] r else lineBlocks p d ws r
  | _ :: r => lineBlocks p d ws r

/-- All the blocks of a tick: block positions that carry no data carry control blocks (R127). -/
def tickBlocks (codewords : Nat) (bs : List Block) : List Block :=
  bs ++ List.replicate (20 * codewords - bs.length) (.control idleWord idleWord)

/-- The levels of a tick on each lane of an external port: its codewords and then the pad (R124 to R126). -/
def Port.tickLevels (q : Port) (ns p : Nat) (bs : List Block) : List (List (BitVec 2)) :=
  let n := popCount q.lanes
  let cs := (pieces 20 (codewordsOf ns p n q.fullRate) (tickBlocks (codewordsOf ns p n q.fullRate) bs)).map (codewordLevels n)
  (List.range n).map fun j => cs.flatMap (fun c => c.getD j []) ++ q.pad ns p

end Sys2Proof.Machine
end

