-- ==== Sys2Proof/Machine/TxOps.lean ====
section
/-! DEFINITION. The transmitter of a port: the blocks of a packet (spec/04 R128, R129), the data cap (R127; spec/17 R606, R610), the
retry buffer (R134, R135, R139, R140). -/

namespace Sys2Proof.Machine

/-! ### Blocks -/

/-- The data blocks of a packet, 32 + `LEN` bytes from the start of a fresh block on; the words that the last leaves over are fill
(R128, R129; each packet starts a block, DESIGN CHOICE, log entry 38). -/
def packetBlocks (h : Hdr) (data : List Byte) : List TxBlock :=
  let bs := le 32 h.toWord.toNat ++ padTo h.len.toNat data
  (pieces 32 (ceilDiv bs.length 32) bs).map fun c =>
    { bytes := BitVec.ofNat 256 (leNat c), fill := BitVec.ofNat 3 ((32 - c.length) / 4) }

/-- Steps of a bay's data cap. -/
def Power.bayStep (p : Power) (c : Nat) : Nat := Map.lookD p.bayCap c 0

/-- Data blocks per 4 ticks that the caps of R606 and R610 leave an external port: down to half of Table 04-1 in 8 steps. -/
def State.cappedBlocks (s : State) (d : DieId) (p : Nat) : Nat :=
  let x := s.die d
  let q := x.port p
  let full := blocks4 x.ns q.width q.fullRate
  if p < 64 then
    let steps := max s.pow.cap (s.pow.bayStep (2 * d.val + p / 32))
    full * (16 - steps) / 16
  else full

/-- Data blocks that the port has sent in the last `n` ticks (R127). -/
def Port.recent (q : Port) (now : Tick) (n : Nat := 4) : Nat :=
  q.sent.foldl (fun m e => if within now e.1 n then m + e.2 else m) 0

/-- Data blocks that a port may still send in this tick: as many as R127 allows, in block positions that the tick has, of which the
first carries the marker (R125). -/
def State.blockRoom (s : State) (d : DieId) (p : Nat) : Nat :=
  let x := s.die d
  let q := x.port p
  min (s.cappedBlocks d p - q.recent x.now) (20 * codewordsOf x.ns p q.width q.fullRate - 1 - q.recent x.now 1)

/-- Blocks sent, counted under their tick. -/
def Port.noteSent (q : Port) (now : Tick) (n : Nat) : Port :=
  { q with sent := (q.sent.filter fun e => within now e.1 4) ++ [(now, n)] }

/-- The blocks of a list leave a port under rising numbers, each with its FILL word (R129, R134). -/
def State.emitBlocks (s : State) (d : DieId) (p : Nat) : BitVec 16 → List TxBlock → State
  | _, [] => s
  | n, b :: r =>
    let s := s.emit (.block d p n b)
    State.emitBlocks (if b.fill = 0 then s else s.emit (.word d p (fillWord b.fill))) d p (n + 1) r

/-- A port sends what it may: first the blocks that are to be sent again, then new ones while the retry buffer is not full (R127,
R134, R135, R139). -/
def State.pump (s : State) (d : DieId) (p : Nat) : State :=
  let q := (s.die d).port p
  let room := if q.carries then s.blockRoom d p else 0
  let again := min room q.resend
  let n := if again < q.resend then 0 else min (room - again) (min q.wait.length (4096 - q.retry.length))
  if again + n = 0 then s
  else
    let out := (q.retry.drop (q.retry.length - q.resend)).take again ++ q.wait.take n
    (s.modDie d fun x => x.modPort p fun q =>
      { (q.noteSent x.now (again + n)) with
        retry := q.retry ++ q.wait.take n, wait := q.wait.drop n, resend := q.resend - again,
        txNext := q.txNext + BitVec.ofNat 16 n,
        ackTick := if q.retry.isEmpty then x.now else q.ackTick }).emitBlocks d p (q.txNext - BitVec.ofNat 16 q.resend) out

/-! ### Retry -/

/-- A port releases every block before `seq` from its retry buffer (R140). -/
def Port.release (q : Port) (now : Tick) (seq : BitVec 16) : Port :=
  let n := (seq - q.txAck).toNat
  if n = 0 || q.retry.length < n then q
  else
    { q with txAck := seq, timeouts := 0, ackTick := now, retry := q.retry.drop n, resend := min q.resend (q.retry.length - n),
             txPkts := q.txPkts.filter fun t => decide (n ≤ (t.last - q.txAck).toNat) }

/-- A port resends from a block that its retry buffer holds, and counts the replay (R139). -/
def State.replay (s : State) (d : DieId) (p : Nat) (seq : BitVec 16) : State :=
  let q := (s.die d).port p
  let n := (seq - q.txAck).toNat
  if n < q.retry.length then
    ((s.modDie d fun x => x.count (cPort 2 3 p)).modDie d fun x => x.modPort p fun q => { q with resend := q.retry.length - n }).pump d p
  else s

/-- The transmitter is at a packet boundary and may send a new block (R127, R135). -/
def State.canStart (s : State) (d : DieId) (p : Nat) : Bool :=
  let q := (s.die d).port p
  q.wait.isEmpty && q.resend == 0 && decide (q.retry.length < 4096) && decide (0 < s.blockRoom d p)

/-! ### Time -/

/-- Time in 1/16 ns that a packet takes on a port at its width and rate (Table 04-1). -/
def Die.sendTime (x : Die) (p bytes : Nat) : Nat :=
  let q := x.port p
  ceilDiv (bytes * 2 * x.ns) (blocks4 x.ns q.width q.fullRate)

/-- A packet is leaving the port at a moment of this tick. -/
def Die.busyAt (x : Die) (p t : Nat) : Bool :=
  match (x.port p).busy with
  | some (k, e) => decide (x.since k 0 t < e)
  | none => false

end Sys2Proof.Machine
end

