-- ==== Sys2Proof/Machine/EgressOps.lean ====
section
/-! DEFINITION. Egress arbitration (spec/03 R101 to R103), circuit slots (spec/05 R201, R204, R206) and cut-through (R111). -/

namespace Sys2Proof.Machine

/-! ### Slots and time -/

/-- Slots of a port granted for sending in a tick (R81, R204). -/
def Tables.slotsOf (t : Tables) (p : Nat) (now : Tick) : BitVec 16 :=
  t.circuits.foldl (fun (m : BitVec 16) e =>
    if ccValid e.2 && ccEgress e.2 == p && !reached now (t.lease e.1) then m ||| ccSlots e.2 else m) 0

/-- Starts of the granted slots of this tick and the next, in 1/16 ns from the boundary (R81). -/
def Die.slotStarts (x : Die) (p : Nat) : List Nat :=
  (bitsOf (x.view.slotsOf p x.now)).map (· * x.ns) ++ (bitsOf (x.tab.slotsOf p x.nextTick)).map fun k => (16 + k) * x.ns

/-- A packet that starts at `t` ends before the next granted slot (R102). -/
def Die.fits (x : Die) (p t bytes : Nat) : Bool :=
  (x.slotStarts p).all fun k => decide (k ≤ t) || decide (t + x.sendTime p bytes ≤ k)

/-- Permission of the next hop for a packet (R103, R229). -/
def Port.permits (q : Port) (h : Held) : Bool := q.permitsKey (q.keyOf h)

/-- A FENCED die sends only completion words and abort heads (R570); the mailbox packets of the FC4 are no packets of the partition's
endpoints and go on (DEDUCED, log entry 71). -/
def Die.fencedStop (x : Die) (h : Held) : Bool :=
  (x.view.part h.hdr.part.toNat).state == .fenced && !(h.inPort == 72 && h.place.isNone) && h.inPort != 70

/-- Slots up to and with this one are taken by a packet that overran its own (R206). -/
def Die.overrunAt (x : Die) (p slot : Nat) : Bool :=
  match Map.look x.overrun p with
  | some (t, l) => later t x.now || (t == x.now && decide (slot ≤ l))
  | none => false

/-! ### A packet leaves -/

/-- Count a packet that leaves by a port (spec/18 Table 18-1). -/
def Die.countTx (x : Die) (p : Nat) (h : Hdr) : Die :=
  ((x.count (ctrKey 1 p 0 h.vc.toNat 1) (cellsOf h.len.toNat)).count (cPort 1 3 p)).count (cPort 1 5 p) h.bytes

/-- Delivery of a packet by a down port: a fenced packet of VC3 to VC7 carries in `GAP` the loss pending on its flow, and clears it
(R219). -/
def Die.deliverHdr (x : Die) (h : Hdr) : Die × Hdr :=
  if !h.fence || h.vc.toNat < 3 then (x, h)
  else if h.vc = 3 then
    let k := flowKey h.part h.src h.dst
    (x.modSpray k fun f => { f with loss := false }, { h with gap := (x.spray k).loss })
  else
    let k := flowKeyVc h.vc h.part h.src h.dst
    match Map.look x.order k with
    | some f => ({ x with order := Map.put x.order k { f with loss := false } }, { h with gap := f.loss })
    | none => (x, { h with gap := x.lossOf h })

/-- The packet leaves the die on a port at `t` after the boundary: buffer, descriptor and cells are free, its blocks go out and await
their acknowledgement, and the place it came from may be done (R101, R104, R134, R214, R289, spec/18 Table 18-1). -/
def State.transmit (s : State) (d : DieId) (p t : Nat) (h : Held) : State :=
  let r := if s.isDown p then (s.die d).deliverHdr h.hdr else (s.die d, h.hdr)
  let s := s.setDie d r.1
  let h := { h with hdr := r.2 }
  let bs := packetBlocks h.hdr h.data
  let s := ((s.modDie d fun x =>
    let k := h.hdr.key
    let idle := if (Map.look x.idleFrom k).isSome then Map.put x.idleFrom k x.nextTick else x.idleFrom
    let x := { x with held := x.held.filter (fun g => g.id != h.id), idleFrom := idle }
    let x := x.countTx p h.hdr
    x.modPort p fun q =>
      let first := q.txNext + BitVec.ofNat 16 q.wait.length
      { q with
        wait := q.wait ++ bs, busy := some (x.now, t + x.sendTime p h.hdr.bytes),
        txPkts := q.txPkts ++
          [{ first := first, last := first + BitVec.ofNat 16 (bs.length - 1), part := h.hdr.part, dst := h.hdr.dst }] }).emit
    (.packet d p h.hdr.toWord h.data)).pump d p
  match h.place with
  | some (k, pl) => s.modDie d fun x => x.placeDone k pl
  | none => s

/-! ### Circuits -/

/-- The circuit that holds a granted slot of a port in this tick (R201, R204). -/
def Die.slotCircuit (x : Die) (p slot : Nat) : Option Nat :=
  (x.view.circuits.find? fun e =>
    ccValid e.2 && ccEgress e.2 == p && bit (ccSlots e.2) slot && !reached x.now (x.view.lease e.1)).map (·.1)

/-- The oldest packet that waits for a slot of a port: the packet of the slot's circuit. Two circuits of one flow keep their own order
only (R201; DESIGN CHOICE, log entry 118). -/
def Die.slotPacket (x : Die) (p slot : Nat) : Option Held :=
  match x.slotCircuit p slot with
  | some c => x.held.find? fun h => h.bin == .circuit && h.outPort == p && h.hdr.circuit.toNat == c && !x.fencedStop h
  | none => none

/-- The slot's packet can be sent now (R103, R135, R201). -/
def State.slotReady (s : State) (d : DieId) (p slot : Nat) (h : Held) : Bool :=
  let x := s.die d
  !x.overrunAt p slot && (x.port p).permits h && s.canStart d p && !x.busyAt p (slot * x.ns)

/-- Send a circuit packet in its slot; one above the limit of Table 02-5 runs on over the following slots (R206). -/
def State.sendInSlot (s : State) (d : DieId) (p slot : Nat) (h : Held) : State :=
  let x := s.die d
  let past := decide (slotUnits x.ns (x.port p) * 256 < h.hdr.len.toNat)
  let last := slot + ceilDiv (x.sendTime p h.hdr.bytes) x.ns - 1
  let s := s.transmit d p (slot * x.ns) h
  if past then
    s.modDie d fun x =>
      { (x.count (cPart 8 2 h.hdr.part.toNat)) with
        overrun := Map.put x.overrun p (x.now + BitVec.ofNat 48 (last / 16), last % 16) }
  else s

/-- A granted slot starts (R201, R206): the circuit's oldest packet leaves; it waits for the next slot, counted, while the next
hop holds XOFF, and uncounted while an overrun takes the slot. -/
def State.slotStart (s : State) (d : DieId) (p slot : Nat) : State :=
  let x := s.die d
  match x.slotPacket p slot with
  | none => s
  | some h =>
    if s.slotReady d p slot h then s.sendInSlot d p slot h
    else if !x.overrunAt p slot && !(x.port p).permits h then s.modDie d fun x => x.count (cPart 8 3 h.hdr.part.toNat)
    else s

/-! ### Arbitration -/

/-- Packets queued for a port, oldest first. -/
def Die.queueOf (x : Die) (p : Nat) : List Held := x.held.filter fun h => h.bin == .queue && h.outPort == p

/-- Packets that no older one keeps back: an older packet of the same virtual channel and partition from the same ingress port
(R100), or of the same flow (R218). -/
def heads : List Held → List Held → List Held
  | _, [] => []
  | older, h :: r =>
    let back (g : Held) : Bool :=
      g.hdr.key == h.hdr.key && (g.seg == 47) == (h.seg == 47) && (g.inPort == h.inPort || (g.hdr.src == h.hdr.src && g.hdr.dst == h.hdr.dst))
    if older.any back then heads (older ++ [h]) r else h :: heads (older ++ [h]) r

/-- Packets that a port may start at a moment (R101 to R103, R127, R135, R570). -/
def State.startable (s : State) (d : DieId) (p t : Nat) : List Held :=
  let x := s.die d
  if !s.canStart d p || x.busyAt p t then []
  else (heads [] (x.queueOf p)).filter fun h => (x.port p).permits h && !x.fencedStop h && x.fits p t h.hdr.bytes

/-- The packet of a virtual channel whose turn it is: partitions in round-robin order, then ingress ports (R101, spec/03 At the
edges). -/
def Port.turn (q : Port) (vc : Nat) (l : List Held) : Option Held :=
  let l := l.filter fun h => h.hdr.vc.toNat == vc
  let parts := (List.range 16).filter fun a => l.any fun h => h.hdr.part.toNat == a
  let parts := match Map.look q.rrPart vc with | some a => rotate parts a | none => parts
  match parts.head? with
  | none => none
  | some a =>
    let l := l.filter fun h => h.hdr.part.toNat == a
    let ins := (List.range 73).filter fun i => l.any fun h => h.inPort == i
    let ins := match Map.look q.rrIn (8 * a + vc) with | some i => rotate ins i | none => ins
    match ins.head? with
    | some i => l.find? fun h => h.inPort == i
    | none => none

/-- The virtual channel after another in the round of R101. -/
def drrAfter (v : Nat) : Nat := if v = 3 then 4 else if v = 4 then 6 else if v = 6 then 7 else 3

/-- Deficit round robin over VC3, VC4, VC6 and VC7 with a quantum of 4,128 B (R101): the channel that sends, and the port after
it. -/
def Port.drr (q : Port) (l : List Held) : Nat → Port × Option Held
  | 0 => (q, none)
  | n + 1 =>
    let v := q.drrAt
    let credit := Map.lookD q.deficit v 4128
    let move (m : Map Nat) : Port :=
      { q with drrAt := drrAfter v, deficit := Map.put m (drrAfter v) (Map.lookD m (drrAfter v) 0 + 4128) }
    match q.turn v l with
    | none => Port.drr (move (Map.rem q.deficit v)) l n
    | some h =>
      if h.hdr.bytes ≤ credit then ({ q with deficit := Map.put q.deficit v (credit - h.hdr.bytes) }, some h)
      else Port.drr (move q.deficit) l n

/-- The port's choice among the packets it may start, after VC5 (R101). -/
def Port.choose (q : Port) (l : List Held) : Port × Option Held :=
  match q.turn 0 l with
  | some h => (q, some h)
  | none =>
    match q.turn 2 l with
    | some h => (q, some h)
    | none =>
      match q.turn 1 l with
      | some h => (q, some h)
      | none => if (l.any fun h => decide (3 ≤ h.hdr.vc.toNat)) then q.drr l 5 else (q, none)

/-- The turns of a port after it has chosen a packet. -/
def Port.served (q : Port) (h : Held) : Port :=
  { q with rrPart := Map.put q.rrPart h.hdr.vc.toNat h.hdr.part.toNat, rrIn := Map.put q.rrIn h.hdr.key h.inPort }

/-- The circuit packet that starts in a granted slot at a moment (R101, R201). -/
def State.slotHead (s : State) (d : DieId) (p t : Nat) : Option Held :=
  let x := s.die d
  let slot := t / x.ns
  if t % x.ns = 0 && decide (slot < 16) then (x.slotPacket p slot).filter fun h => s.slotReady d p slot h else none

/-- A packet boundary on a port, `t` after the tick boundary (R101). A granted slot whose packet XOFF or the retry buffer holds back is
used as one without a packet (DESIGN CHOICE, log entry 118). -/
def State.select (s : State) (d : DieId) (p t : Nat) : State :=
  let x := s.die d
  match s.slotHead d p t with
  | some h => s.sendInSlot d p (t / x.ns) h
  | none =>
    if x.overrunAt p (t / x.ns) then s
    else
      match (x.port p).choose (s.startable d p t) with
      | (_, none) => s
      | (q, some h) => (s.modDie d fun x => x.modPort p fun _ => q.served h).transmit d p t h

/-- The port can start a packet (R32, Table 04-4). -/
def State.sends (s : State) (d : DieId) (p : Nat) : Bool :=
  (s.die d).on && decide (p < 70) && ((s.die d).port p).carries && !s.shutBridge p

/-- The port is idle: it could start a packet and has none to start (R111). -/
def State.idlePort (s : State) (d : DieId) (p t : Nat) : Bool :=
  let x := s.die d
  s.sends d p && s.canStart d p && !x.busyAt p t && !x.overrunAt p (t / x.ns) && (s.slotHead d p t).isNone &&
    (s.startable d p t).isEmpty

/-! ### Cut-through -/

/-- Virtual channels that go cut-through at a die; VC3 not at its destination leaf die (R111). -/
def State.cutVc (s : State) (vc p : Nat) : Bool := vc == 0 || vc == 4 || vc == 5 || vc == 6 || vc == 7 || (vc == 3 && !s.isDown p)

/-- A packet that entered on `p` and whose route has been chosen goes out at once when R111 lets it go cut-through: the ports on which
it stands queued were idle before it came (`before`), and are no wider than the port of its entry. -/
def State.cutThrough (s before : State) (d : DieId) (p t : Nat) (id : Nat) : State :=
  match (s.die d).held.find? fun h => h.id == id && (h.bin == .queue || h.bin == .circuit) with
  | some h =>
    let x := s.die d
    if p < 70 && s.cutVc h.hdr.vc.toNat h.outPort && before.idlePort d h.outPort t &&
        decide ((x.port h.outPort).width ≤ (x.port p).width) then s.select d h.outPort t
    else s
  | none => s

end Sys2Proof.Machine
end

