-- ==== Sys2Proof/Machine/TraceOps.lean ====
section
/-! DEFINITION. The FC4 cores in low power and their trace records (spec/18 R622 to R632). -/

namespace Sys2Proof.Machine

/-- Records that leave a full FIFO in the 2 us of R630, one every 64 ns. -/
def offRecords : Nat := 31

/-- Count the records left in the FIFO of a core whose domain loses power (R625, R630). -/
def State.loseFifo (s : State) (c : Nat) (sleepLost : Bool) : State :=
  let k := s.core c
  let n := k.fifo.length
  let s := s.modCore c fun k =>
    { k with cond := .off, fifo := [], lostSleep := k.lostSleep + BitVec.ofNat 32 n, sleepMissing := sleepLost,
             sleepTick := if sleepLost then s.boot.now else k.sleepTick }
  s.countLost c n

/-- The FC4 takes a core off: a running core writes SLEEP with `DEPTH` 2, the FIFO empties for up to 2 us, and the rest is
counted (R630). -/
def State.coreDown (s : State) (c : Nat) (reason : Nat) : State :=
  let k := s.core c
  match k.cond with
  | .off => s
  | .sleep => s.loseFifo c false
  | .run =>
    let s := s.traceWrite c 0x01 [2, BitVec.ofNat 8 reason]
    let s := s.modCore c fun k => { k with sleepTick := s.boot.now, sleepMissing := false }
    let s := s.deliver c offRecords
    s.loseFifo c (!(s.core c).fifo.isEmpty)

/-- A core's domain loses power with no SLEEP record written (R630, R631). -/
def State.coreCut (s : State) (c : Nat) : State :=
  match (s.core c).cond with
  | .off => s
  | .sleep => s.loseFifo c false
  | .run => s.loseFifo c true

/-- The trace buffer when domain 128 is powered (R622). -/
def State.clearTrace (s : State) : State :=
  { s with trace := { s.trace with mem := [], woff := 0, wraps := 0, lost := 0 } }

/-- CORE_SLEEP (R623, R628, R629): a core that has written no record for 2,048 ticks; MC0 never enters SLEEP. -/
def execCoreSleep (core : Fin 4) (s : State) : Host.Outcome State Fault Refusal :=
  let c := core.val
  let s := s.fresh
  done (if c ≠ 0 && (s.core c).cond == .run && !within s.boot.now (s.core c).worked 2048 then
      let t := s.traceWrite c 0x01 [1, 0]
      let t := t.modCore c fun k => { k with sleepTick := t.boot.now, sleepMissing := false }
      let t := t.deliver c (t.core c).fifo.length
      t.modCore c fun k => { k with cond := .sleep }
    else s)

/-- CORE_WAKE (R625, R628, R631): a core leaves SLEEP, or OFF once its domain is on. -/
def execCoreWake (core : Fin 4) (s : State) : Host.Outcome State Fault Refusal :=
  let c := core.val
  let s := s.fresh
  done (match (s.core c).cond with
    | .sleep => s.resumeCore c 0
    | .off => if s.pow.domains.getLsbD (128 + c) then s.resumeCore c 1 else s
    | .run => s)

/-- TRACE_SYNC (R623, R627): MC3 writes a SYNC every 1,048,576 ticks, and at the first boundary after the always-on counter
steps. -/
def execTraceSync (s : State) : Host.Outcome State Fault Refusal :=
  let s := s.fresh
  done (if s.boot.now.toNat % 1048576 = 0 || s.trace.syncDue then
      ({ s with trace := { s.trace with syncDue := false } }).traceWrite 3 0x03 s.syncPayload
    else s)

end Sys2Proof.Machine
end

