-- ==== Sys2Proof/Machine/PowerOps.lean ====
section
/-! DEFINITION. Switched power domains: which of them the tray's state and configuration need, the queue of paced steps that
brings them there, and what follows when a domain changes (spec/17 R580 to R582, R584, R592 to R595; R38, R108, R328). -/

namespace Sys2Proof.Machine

/-- Caddy type of a bay: 1 CP, 2 CA, 3 CO (Table 04-8). -/
def Bay.kind (b : Bay) : Nat := (b.eeprom.getD 6 0).toNat

/-- The power state that the tray is in or moving to. -/
def State.aim (s : State) : Nat := match s.pow.target with | some (t, _) => t.toNat | none => s.pow.state.toNat

/-- The state of domain `k` once every queued step is done. -/
def Power.willBe (p : Power) (k : Nat) : Bool :=
  match (p.steps.filter fun e => e.dom == k).getLast? with
  | some e => e.on
  | none => p.domains.getLsbD k

/-- R651: the latest flow sample is at least 4.5 L/min and no leak is detected. -/
def Power.coolOk (p : Power) : Bool := decide (450 ≤ p.last.flow) && p.last.leak == 0

/-- The core of a die is to be powered: it is powered already or in retention, or FUSE_CHECK enables it (R542, R588, R651). -/
def State.wantsCore (s : State) (d : DieId) : Bool :=
  decide (s.aim ≤ 1) && s.boot.ident.isSome &&
    (s.pow.willBe (28 * d.val + 27) || (s.die d).core == .retention ||
      (s.boot.stage == .fuseCheck && !s.boot.checkDue && s.pow.coolOk))

/-- Domain `28n + i` of die Qn is needed (Table 17-2, R38, R108, R328, R543, R581). -/
def State.wantsDie (s : State) (d : DieId) (i : Nat) : Bool :=
  let x := s.die d
  let st := s.aim
  if i = 27 then s.wantsCore d
  else s.wantsCore d && x.on &&
    (if i < 16 then !x.shed.contains i && (List.range 4).any fun j => (s.cabled d).getLsbD (4 * i + j)
     else if i < 18 then true
     else if i < 22 then st == 0 || i == 18
     else if i < 26 then i == 25 || x.tab.segs.any fun e => e.1 / 12 == i - 22 && e.2.owner.isSome
     else x.tab.parts.any fun e => decide (0 < e.2.dirSize))

/-- A caddy condition at `TEMP_CRIT` holds (R604, R610). -/
def Bay.critical (b : Bay) : Bool := decide (3 ≤ b.hot)

/-- Domain `k` is needed. -/
def State.wants (s : State) (k : Nat) : Bool :=
  let st := s.aim
  if h : k < 112 then s.wantsDie ⟨k / 28, by omega⟩ (k % 28)
  else if h : k < 128 then
    let b := s.bay ⟨(k - 112) / 2, by omega⟩
    if k % 2 = 0 then b.state != .empty && decide (st ≤ 2)
    else b.taken && !b.critical && decide (st ≤ 1)
  else if k = 128 || k = 132 then decide (st ≤ 2) else decide (st ≤ 1)

/-- The steps of one domain (Table 17-1, R582). -/
def State.stepsOf (s : State) (k : Nat) (on : Bool) : List PwrStep :=
  let one (w : Nat) : List PwrStep := [{ dom := k, on := on, halfW := w }]
  let four (w : Nat) : List PwrStep := (List.range 4).map fun i => { dom := k, on := on, halfW := w, last := i == 3 }
  if k < 112 then
    let i := k % 28
    one (2 * (if i < 18 then 30 else if i < 22 then 40 else if i < 26 then 18 else if i = 26 then 10 else 90))
  else if h : k < 128 then
    if k % 2 = 0 then one 4
    else match (s.bay ⟨(k - 112) / 2, by omega⟩).kind with
      | 2 => four 45
      | 3 => four 100
      | _ => one 8
  else one (if k = 132 then 32 else 12)

/-- Order in which domains are enabled: the FC4, then each die with its core first, then the caddies (R581). -/
def enableOrder : List Nat :=
  [128, 132, 129, 130, 131] ++ (List.range 4).flatMap (fun n => (28 * n + 27) :: (List.range 27).map (28 * n + ·)) ++
    (List.range 16).map (112 + ·)

/-- Queue the steps that bring every domain to what is needed: those to disable first, a die's core last, then those to
enable (R581, R595). -/
def State.planPower (s : State) : State :=
  let off := enableOrder.reverse.filter fun k => s.pow.willBe k && !s.wants k
  let on := enableOrder.filter fun k => !s.pow.willBe k && s.wants k
  let steps := off.flatMap (fun k => s.stepsOf k false) ++ on.flatMap fun k => s.stepsOf k true
  { s with pow := { s.pow with steps := s.pow.steps ++ steps } }

/-- The pacing limit L in W/ms (R592); none when the tray is not paced. -/
def Power.limit (p : Power) : Option Nat :=
  if p.ramp.rackLimit = 0xFFFFFFFF then none
  else
    let share := if p.ramp.paceShare ≠ 0 then p.ramp.paceShare.toNat else p.ramp.trayShare.toNat
    some (p.ramp.rackLimit.toNat * share / 1000)

/-- `RAMP_ALLOWANCE` of R597. -/
def Ramp.allowance (r : Ramp) : Byte :=
  let share := r.trayShare.toNat
  if r.rackLimit = 0xFFFFFFFF then 255
  else if 1000 ≤ 4 * share then 0
  else BitVec.ofNat 8 (min 254 (2 * r.rackLimit.toNat * (1000 - 4 * share) / 128000))

/-- A lane group gains or loses power: its ports go to DETECT, or fail with the cause of row 5 (R88, R150, R536). A port that only
`link.retrain` takes out of DISABLED stays there (R153, R442). -/
def State.switchLanes (s : State) (d : DieId) (g : Nat) (on : Bool) : State :=
  let s := s.modDie d fun x => { x with laneGroups := setBit x.laneGroups g on }
  let ports := (List.range 4).map (4 * g + ·)
  if on then
    ports.foldl (fun (t : State) p =>
      if p < 70 then t.modDie d fun x => x.modPort p fun q => if q.keptOff then q else q.resetLink .detect 0 else t) s
  else ports.foldl (fun (t : State) p => if p < 70 then t.failLink d p 5 true else t) s

/-- What an FC4 reset clears: keys, nonces, slots, copies, event queues and sequences, subscribers, FC4 counters, the settings
of `pwr.ramp`, bits 2 and 3 of `FULL_COND`, the identify indicator, kept sweeps, MSP settings and the FPSM's read mode (R403,
R415, R435, R436, R505, R517, R527, R593, R616; spec/11 What if the FC4 resets). A fuse operation under way is cut, and a
verification under way is void. -/
def State.clearFc4 (s : State) : State :=
  { s with
    boot := { s.boot with ready := false, identify := false, identifyNext := none, romOnly := false, resetDue := none },
    tok := { s.tok with claims := [], keys := [], seqs := [], nonces := [] },
    mbx := {}, evs := {},
    fuse := { s.fuse with op := none },
    fw := { s.fw with descOk := false, xip := false, lines := [], flashBusy := false, misses := [], fpsm := {},
                      staged := if s.fw.staged = 2 then 1 else s.fw.staged },
    mspA := {}, mspB := { repeat_ := true },
    pow := { s.pow with ramp := {}, rampNext := none },
    notes := { s.notes with due := [], sent := [] },
    sweeps := [] }

/-- Enter a stage of bring-up. -/
def State.setStage (s : State) (st : Stage) : State :=
  { s with boot := { s.boot with stage := st, stageTick := s.boot.now } }

/-- The FPSM resets the boot flash for 10 µs and waits 100 µs, here in cycles of the boot read profile (R505). -/
def flashReset : List FpsmPin := [.clock 10, .reset true, .wait 532, .reset false, .wait 5320]

/-- The FC4 begins at BOOT (Table 15-1). -/
def State.toBoot (s : State) (cause : BitVec 8) : State :=
  (({ s with boot := { s.boot with bootTick := s.boot.now, resetCause := cause, checkDue := false } }).setStage .boot).emit
    (.fpsm flashReset)

/-- What a die in retention keeps (R587, R616): its tables, partitions and counters; the packet buffer, blend memory, flows and
directory entries are lost. A port that only `link.retrain` takes out of DISABLED stays there (R153, R442). -/
def Die.retain (x : Die) : Die :=
  let t := { x.tab with dir := [] }
  { core := .retention, now := x.now, view := t, tab := t, ctr := x.ctr, ctrView := x.ctrView, unbound := x.unbound,
    shed := x.shed, fencedAt := x.fencedAt, remaps := x.remaps,
    ports := (x.ports.filter fun e => e.2.keptOff).map fun e => (e.1, { state := .disabled, cause := e.2.cause, fails := e.2.fails }),
    pots := Map.mapVal x.pots fun _ e => { e with pour := none, zeroing := false } }

/-- Domain 128 + c of an FC4 core changes (R584, R622, R630, R631). -/
def State.coreDomain (s : State) (c : Nat) (on : Bool) : State :=
  if on then
    if c = 0 && s.boot.stage == .alwaysOn then
      let s := s.clearFc4.clearTrace
      let s := [0, 1, 2, 3].foldl (fun (t : State) i => t.modCore i fun k => { k with seq := 0 }) s
      s.resumeCore 0 1
    else s.resumeCore c 1
  else s.coreDown c (if s.pow.grade = 3 then 2 else 1)

/-- The insertion of the bay's caddy starts again at step 2 (R167, Table 04-9): its EEPROM is read anew. -/
def Bay.again (b : Bay) : Bay :=
  { b with state := .domainA, cause := 0, warm := 0, hot := 0, cool := 0, eeprom := if b.cause = 1 then [] else b.eeprom }

/-- Domain A of a bay loses power; a caddy in it is identified again when it returns (DEDUCED, log entry 119). -/
def Bay.unpowered (b : Bay) : Bay := if b.state == .empty then b else { b.again with taken := false }

/-- The caddy's ports have left and domain B is off: the bay shows ready-to-remove (R164). -/
def Bay.released (b : Bay) : Bay := if b.state == .leaving && !b.taken then { b with state := .readyToRemove } else b

/-- Domain B of a bay goes off: no light reaches its ports, which fail as at a powered-off lane group (R157, R164, R587). -/
def State.domainBOff (s : State) (c : BayId) : State :=
  ((bayPorts c).foldl (fun (t : State) p => t.failLink (bayDie c) p 5) s).modBay c fun b => { b with domB := false }.released

/-- What follows when domain `k` has changed. -/
def State.domainChanged (s : State) (k : Nat) (on : Bool) : State :=
  let s := { s with pow := { s.pow with domains := setBit s.pow.domains k on } }
  if h : k < 112 then
    let d : DieId := ⟨k / 28, by omega⟩
    let i := k % 28
    if i < 18 then s.switchLanes d i on
    else if i = 26 && !on then
      s.modDie d fun x => { (x.modBoth fun t => { t with dir := [] }) with cleared := Map.keep x.cleared fun n _ => 262144 ≤ n }
    else if i = 27 && !on then s.modDie d fun x => if s.aim = 2 then x.retain else {}
    else s
  else if h : k < 128 then
    let c : BayId := ⟨(k - 112) / 2, by omega⟩
    if on then s
    else if k % 2 = 1 then s.domainBOff c
    else s.modBay c Bay.unpowered
  else
    let s := if k < 132 then s.coreDomain (k - 128) on else s
    if s.boot.stage == .alwaysOn && s.pow.domains.getLsbD 128 && s.pow.domains.getLsbD 132 then s.toBoot 0 else s

/-- Drop the queued steps of one set of domains. -/
def State.dropSteps (s : State) (p : Nat → Bool) : State :=
  { s with pow := { s.pow with steps := s.pow.steps.filter fun e => !p e.dom } }

/-- Drop the queued steps except those of a domain whose change has begun. -/
def State.dropPlan (s : State) : State :=
  match s.pow.steps with
  | [] => s
  | e :: _ =>
    let mine := s.pow.steps.takeWhile fun f => f.dom == e.dom && f.on == e.on
    { s with pow := { s.pow with steps := if mine.length < (s.stepsOf e.dom e.on).length then mine else [] } }

/-- Endpoints of the assigned down ports of a die whose link is not up. -/
def State.deadPorts (s : State) (d : DieId) : List (Nat × BitVec 4) :=
  if s.isLeaf then (s.die d).view.portPart.filter fun e => !((s.die d).port e.1).up else []

/-- Raise `fault.endpoint_lost` for a down port (R561). -/
def State.raiseLost (s : State) (d : DieId) (row : Nat) (e : Nat × BitVec 4) : State :=
  s.raiseDie 0x0B81 d (BitVec.ofNat 8 e.1) (e.2.setWidth 8) 0xFF (BitVec.ofNat 8 row) (le 2 (s.endpointId d e.1).toNat)

/-- A die is declared lost (R572): its ports fail, its other domains go off, and the loss is reported. -/
def State.dieLost (s : State) (d : DieId) : State :=
  let dead := s.deadPorts d
  let s := (List.range 70).foldl (fun (t : State) p => t.failLink d p 5 true) s
  let s := s.dropSteps fun k => k / 28 == d.val && decide (k < 112)
  let s := { s with pow := { s.pow with
    domains := (List.range 28).foldl (fun m i => setBit m (28 * d.val + i) false) s.pow.domains } }
  let far := if s.isSpine then s.spineDie d else s.leafIndex d
  let s := s.raiseDie 0x0B83 d 0xFF 0xFF 0xFF (if s.isSpine then 1 else 0) [BitVec.ofNat 8 s.plane, BitVec.ofNat 8 far]
  let s := (dead.foldl (fun (t : State) e => t.raiseLost d 5 e) s).setDie d {}
  { s with mbx := { s.mbx with outbox := s.mbx.outbox.filter fun m => m.d != d } }

/-- Every switched domain goes off with no pacing, and the tray is in T3 (R589, R596, R608, R649). `reason` is that of a
SLEEP record; none where power is cut before one is written. -/
def State.enterT3 (s : State) (reason : Option Nat) : State :=
  let s := allDieIds.foldl (fun (t : State) d => if (t.die d).core == .off then t else t.dieLost d) s
  let s := (List.range 4).foldl (fun (t : State) c => match reason with | some r => t.coreDown c r | none => t.coreCut c) s
  let s := allBays.foldl (fun (t : State) c => t.modBay c fun b =>
    { b.unpowered with domB := false }) s
  ({ s with pow := { s.pow with state := 3, target := none, domains := 0, steps := [], shutdown := none },
            boot := { s.boot with identify := false, identifyNext := none, ident := none } }).setStage .alwaysOn

end Sys2Proof.Machine
end

