-- ==== Sys2Proof/Machine/PartCmds.lean ====
section
/-! DEFINITION. The partition commands (spec/12 Partitions, spec/10 R350 to R368). -/

namespace Sys2Proof.Machine

/-- Code of a partition state (Table 12-10). -/
def PartState.code : PartState → Nat
  | .closed => 0
  | .reopening => 1
  | .opened => 2
  | .fenced => 3

/-! ### Reopening, restarting and closing a partition -/

/-- Valid directory entries that pass a test become invalid (R86, R327, R349, R456). -/
def Die.clearDir (x : Die) (p : Nat → Bool) : Die :=
  let gone := (x.tab.dir.filter fun e => e.2.valid && p e.1).map (·.1)
  if gone.isEmpty then x
  else
    { x with tab := { x.tab with dir := Map.mapVal x.tab.dir fun i e => if p i then { e with valid := false } else e },
             cleared := gone.foldl (fun m i => Map.put m i true) x.cleared }

/-- Index `i` lies in a range. -/
def inRange (lo n i : Nat) : Bool := decide (lo ≤ i) && decide (i < lo + n)

/-- The state of the flows that a partition's reset forgets (R190, R224, R355). -/
def Die.forgetFlows (x : Die) (p : Nat) : Die :=
  { x with spraySeq := Map.keep x.spraySeq fun k _ => keyPart k != p,
           sprayRx := Map.keep x.sprayRx fun k _ => keyPart k != p,
           moved := Map.keep x.moved fun k _ => k / 2048 != p,
           order := Map.keep x.order fun k _ => keyPart k != p }

/-- Discard every packet of a partition that the die holds, counted in `fault.drop.fenced` (R570); those of segment 47 are of no
partition. -/
def Die.dropPart (x : Die) (p : Nat) : Die :=
  x.discardHeld (fun h => h.seg != 47 && h.hdr.part.toNat == p) (fun _ => cPart 0x0D 0 p) false

/-- Entry to REOPENING: a new generation, the zeroing of every segment and pot, and the resets of R355 (R353, R355, R349). -/
def Die.reopen (x : Die) (p : Nat) : Die :=
  let gen := (x.tab.part p).gen + 1
  let segs := x.tab.segsHeld p
  let pots := x.potsOf p
  let x := x.clearDir (inRange (x.tab.part p).dirBase (x.tab.part p).dirSize)
  let x := x.modTab fun t =>
    let t := t.modPart p fun q => { q with state := .reopening, gen := gen }
    { t with segs := segs.foldl (fun m g => Map.upd m g {} fun e =>
        { e with last := some (BitVec.ofNat 4 p, gen), inQuota := false }) t.segs }
  let x := { x with pots := pots.foldl (fun m n => Map.upd m n {} fun e =>
    { e with last := match e.owner with | some (q, g, _) => some (q, gen, g) | none => e.last, pour := none }) x.pots }
  ((x.zeroSegs segs).zeroPots pots).forgetFlows p

/-- A command moves a partition from a starting state to REOPENING (R352, R353, R355). -/
def State.reopenPart (s : State) (d : DieId) (p : Nat) (keepAlias : Bool) : State :=
  let s := (s.modDie d fun x => x.dropPart p).abortAll d 4 fun q => q.part.toNat == p
  s.modDie d fun x =>
    let x := { (x.reopen p) with fencedAt := Map.rem x.fencedAt p, touched := setBit x.touched p false }
    if keepAlias then x
    else x.modTab fun t =>
      { (t.modPart p fun q => { q with aliasEpoch := 0 }) with ranks := Map.keep t.ranks fun k _ => k / 2048 != p }

/-- Carry out a partition command on a die and trace it. -/
def State.partAct (op : Nat) (act : DieId → State → State × Status) (d : DieId) (s : State) : State × Status :=
  let r := act d s
  (r.1.traceDieWrite d 6 op 0 1 r.2, r.2)

/-- PART_OPEN (R352 to R355, R564). -/
def execPartOpen (f : Frame) (part mask : Byte) (s : State) : Host.Outcome State Fault Refusal :=
  done (s.serveMask { op := 0x0501, change := true, len := 4 } f part mask false
    (State.partAct 0x0501 fun d t =>
      if ((t.die d).tab.part part.toNat).state == .closed then (t.reopenPart d part.toNat false, .ok)
      else (t, .partState)))

/-- PART_RESTART (R352 to R355, R349, R564, R571). -/
def execPartRestart (f : Frame) (part mask : Byte) (s : State) : Host.Outcome State Fault Refusal :=
  done (s.serveMask { op := 0x0505, change := true, len := 4 } f part mask false
    (State.partAct 0x0505 fun d t =>
      if ((t.die d).tab.part part.toNat).state == .fenced then (t.reopenPart d part.toNat true, .ok)
      else (t, .partState)))

/-- What `part.close` clears on a die: the partition's group, circuit and sequence entries, its segments, pots and directory
range (R356, R455). Its pours end with their groups: what the die holds of them is discarded and counted in `grp.drop.closed` (R99;
DEDUCED, log entry 62). -/
def Die.closePart (x : Die) (p : Nat) : Die :=
  let mine := x.pours.filter fun q => q.part.toNat == p
  let x := { x with pours := x.pours.filter fun q => q.part.toNat != p }
  let x := mine.foldl (fun (y : Die) q => if q.waits.isEmpty then y else y.count (cPart 11 0 p) q.waits.length) x
  let x := x.discardHeld (fun h => h.place.isSome && h.hdr.part.toNat == p) (fun _ => cPart 11 0 p) false
  let x := { x with short := Map.keep x.short fun c _ => ccPart (x.tab.circuit c) != p,
                    fencedAt := Map.rem x.fencedAt p, touched := setBit x.touched p false,
                    pots := Map.mapVal x.pots fun _ e => match e.owner with
                      | some o => if o.1.toNat == p then { e with owner := none, pour := none } else e
                      | none => e }
  let x := x.clearDir (inRange (x.tab.part p).dirBase (x.tab.part p).dirSize)
  (x.modTab fun t =>
    let t := t.modPart p fun q => { q with state := .closed, dirBase := 0, dirSize := 0 }
    { t with
      groups := Map.mapVal t.groups fun _ g => if gPart g.control == p then { g with control := setBit g.control 0 false } else g,
      circuits := Map.mapVal t.circuits fun _ e => if ccPart e == p then setBit e 0 false else e,
      seqs := Map.mapVal t.seqs fun k w => if k / 64 == p then setBit w 0 false else w,
      segs := Map.mapVal t.segs fun _ g => if g.owner == some (BitVec.ofNat 4 p) then { g with returning := true } else g })

/-- PART_CLOSE (R352, R356, R455). -/
def execPartClose (f : Frame) (part mask : Byte) (s : State) : Host.Outcome State Fault Refusal :=
  let p := part.toNat
  done (s.serveMask { op := 0x0502, change := true, len := 4 } f part mask false
    (State.partAct 0x0502 fun d t =>
      let x := t.die d
      let st := (x.tab.part p).state
      if st != .opened && st != .fenced then (t, .partState)
      else if x.tab.portPart.any fun e => e.2.toNat == p then (t, .portsAssigned)
      else ((t.modDie d fun x => x.closePart p).planPower, .ok)))

/-! ### Segments, directory range and down ports -/

/-- Serve one operation of `part.alloc` (R360): the die of the command and its power domains change. -/
def State.serveAlloc (s : State) (f : Frame) (part die : Byte) (bad : Bool) (act : Die → Except Status Die) : State :=
  s.serveDie { op := 0x0503, change := true, len := 12 } f part die bad fun d t =>
    let r := dieAct 0x0503 6 0 1 act d t
    (if r.2 = .ok then r.1.planPower else r.1, r.2, [])

/-- Grant a segment (R362, R365): a partition that was not its last owner has it zeroed first; a CLOSED partition's segments
are zeroed when it opens. -/
def Die.grantSeg (x : Die) (p g : Nat) : Except Status Die :=
  let q := x.tab.seg g
  let own := (BitVec.ofNat 4 p, (x.tab.part p).gen)
  if q.owner.isSome || x.segJobs.any (fun j => j.item == g) then .error .noSegment
  else
    let put (e : Seg) : Die := x.modTab fun t => { t with segs := Map.put t.segs g e }
    if (x.tab.part p).state == .closed then
      .ok (put { owner := some own.1, last := q.last, inQuota := false, returning := false })
    else if q.last = some own then .ok (put { owner := some own.1, last := some own, inQuota := true, returning := false })
    else .ok ((put { owner := some own.1, last := some own, inQuota := false, returning := false }).zeroSegs [g])

/-- PART_GRANT_SEG: `part.alloc` with OP 1 (R360, R362, R365, R456). -/
def execPartGrantSeg (f : Frame) (part die seg : Byte) (s : State) : Host.Outcome State Fault Refusal :=
  done (s.serveAlloc f part die (46 < seg.toNat) fun x => x.grantSeg part.toNat seg.toNat)

/-- Return a segment (R361, R362, R238). -/
def Die.returnSeg (x : Die) (p g : Nat) : Except Status Die :=
  let q := x.tab.seg g
  if q.owner ≠ some (BitVec.ofNat 4 p) || q.returning then .error .badField
  else if !x.quotaOk ((x.tab.segsHeld p).length - 1) (x.tab.part p).shares then .error .quotaShort
  else .ok (x.modTab fun t => { t with segs := Map.put t.segs g { q with returning := true } })

/-- PART_RETURN_SEG: `part.alloc` with OP 2 (R360 to R362, R456). -/
def execPartReturnSeg (f : Frame) (part die seg : Byte) (s : State) : Host.Outcome State Fault Refusal :=
  done (s.serveAlloc f part die (46 < seg.toNat) fun x => x.returnSeg part.toNat seg.toNat)

/-- Two ranges of the directory overlap. -/
def overlap (a n b m : Nat) : Bool := decide (0 < n) && decide (0 < m) && decide (a < b + m) && decide (b < a + n)

/-- Valid sequence descriptors of a partition. -/
def Tables.seqsOf (t : Tables) (p : Nat) : List (Nat × BitVec 128) :=
  t.seqs.filter fun e => decide (e.1 / 64 = p) && sdValid e.2

/-- Set the directory range of a partition (R325, R363, R456). -/
def Die.dirRange (x : Die) (p base size : Nat) : Except Status Die :=
  let others := x.tab.parts.any fun e => decide (e.1 ≠ p) && overlap base size e.2.dirBase e.2.dirSize
  if others then .error .dirOverlap
  else if (x.tab.seqsOf p).any fun e => sdBase e.2 < base || base + size < sdBase e.2 + sdBlocks e.2 then .error .dirRange
  else
    let q := x.tab.part p
    let x := x.clearDir fun i => inRange q.dirBase q.dirSize i && !inRange base size i
    .ok (x.modTab fun t => t.modPart p fun q => { q with dirBase := base, dirSize := size })

/-- PART_DIR_RANGE: `part.alloc` with OP 3 (R325, R328, R360, R363, R456). -/
def execPartDirRange (f : Frame) (part die : Byte) (base size : BitVec 32) (s : State) : Host.Outcome State Fault Refusal :=
  done (s.serveAlloc f part die (262144 < base.toNat + size.toNat) fun x => x.dirRange part.toNat base.toNat size.toNat)

/-- Serve `part.ports` (R357, R457). -/
def State.servePorts (s : State) (f : Frame) (part die port : Byte) (act : Die → Except Status Die) : State :=
  s.serveDie { op := 0x0504, change := true, len := 4 } f part die (31 < port.toNat) fun d t =>
    if t.isSpine then (t, .invalidForRole, [])
    else
      let r := dieAct 0x0504 6 port.toNat 1 act d t
      (r.1, r.2, [])

/-- PART_PORTS_ASSIGN: `part.ports` with OP 1 (R357, R457). -/
def execPartPortsAssign (f : Frame) (part die port : Byte) (s : State) : Host.Outcome State Fault Refusal :=
  done (s.servePorts f part die port fun x =>
    if (Map.look x.tab.portPart port.toNat).isSome then .error .portAssigned
    else .ok (x.modTab fun t => { t with portPart := Map.put t.portPart port.toNat (part.setWidth 4) }))

/-- PART_PORTS_UNASSIGN: `part.ports` with OP 2 (R358, R457). -/
def execPartPortsUnassign (f : Frame) (part die port : Byte) (s : State) : Host.Outcome State Fault Refusal :=
  done (s.servePorts f part die port fun x =>
    match Map.look x.tab.portPart port.toNat with
    | some q =>
      if q.toNat = part.toNat then .ok (x.modTab fun t => { t with portPart := Map.rem t.portPart port.toNat })
      else .error .badField
    | none => .ok x)

/-! ### Settings -/

/-- The defaults of a model mapping mode (Table 01-8). -/
def Part.setMode (q : Part) (layer : Bool) : Part :=
  if layer then { q with layer := true, shares := 0x03020C0404030301#64, circCap := 12, defLease := 250000 }
  else { q with layer := false, shares := 0x020201040A060601#64, circCap := 2, defLease := 2500 }

/-- The partition has an open group or a live circuit lease on this die (R46). -/
def Die.modeFixed (x : Die) (p : Nat) : Bool :=
  (x.tab.groups.any fun e => gValid e.2.control && gPart e.2.control == p) ||
    x.tab.circuits.any fun e => ccValid e.2 && ccPart e.2 == p && !reached x.now (x.tab.lease e.1)

/-- The fields of `part.config` (Table 12-9). -/
structure PartSet where
  setMask : Byte
  mode : Byte
  failMode : Byte
  circCap : Byte
  shares : BitVec 64
  lease : BitVec 32
deriving DecidableEq, Repr

/-- Sum of eight shares. -/
def shareSum (w : BitVec 64) : Nat := (List.range 8).foldl (fun n v => n + (fld w (8 * v) 8).toNat) 0

/-- One setting of `part.config`: bit `i` of `SET_MASK`, in the order of R458. -/
def Die.applySet (x : Die) (p : Nat) (q : PartSet) (i : Nat) : Except Status Die :=
  let put (f : Part → Part) : Except Status Die := .ok (x.modTab fun t => t.modPart p f)
  let cur := x.tab.part p
  match i with
  | 0 =>
    if 1 < q.mode.toNat then .error .badField
    else if (q.mode == 1) != cur.layer && x.modeFixed p then .error .partState
    else put fun r => r.setMode (q.mode == 1)
  | 1 =>
    if 1 < q.failMode.toNat then .error .badField
    else if cur.state == .fenced then .error .partState
    else put fun r => { r with restart := q.failMode == 1 }
  | 2 =>
    if shareSum q.shares ≠ 32 then .error .badField
    else if !x.quotaOk (x.tab.segsHeld p).length q.shares then .error .quotaShort
    else put fun r => { r with shares := q.shares }
  | 3 => if 16 < q.circCap.toNat then .error .badField else put fun r => { r with circCap := q.circCap }
  | _ => if q.lease = 0 then .error .badField else put fun r => { r with defLease := q.lease }

/-- Apply the settings that `SET_MASK` selects, in order, until one is refused; those applied stand (R458). -/
def Die.applySets (x : Die) (p : Nat) (q : PartSet) : Die × Status :=
  [0, 1, 2, 3, 4].foldl (fun (a : Die × Status) i =>
    if a.2 ≠ .ok || !q.setMask.getLsbD i then a
    else match a.1.applySet p q i with
      | .ok y => (y, .ok)
      | .error st => (a.1, st)) (x, .ok)

/-- PART_CONFIG (R46, R47, R458 to R461, R559). -/
def execPartConfig (f : Frame) (part mask setMask mode failMode circCap : Byte) (shares : BitVec 64) (lease : BitVec 32)
    (s : State) : Host.Outcome State Fault Refusal :=
  let q : PartSet := { setMask := setMask, mode := mode, failMode := failMode, circCap := circCap, shares := shares, lease := lease }
  done (s.serveMask { op := 0x0506, change := true, len := 24 } f part mask false
    (State.partAct 0x0506 fun d t =>
      let r := (t.die d).applySets part.toNat q
      (t.setDie d r.1, r.2)))

/-- Segments and pots of a partition still queued or zeroing (Table 12-10). -/
def Die.zeroPending (x : Die) (p : Nat) : Nat :=
  let segs := x.segJobs.filter fun j => (x.tab.seg j.item).owner == some (BitVec.ofNat 4 p)
  let pots := x.potJobs.filter fun j => match (x.pot j.item).owner with | some o => o.1.toNat == p | none => false
  (segs.map (·.item)).eraseDups.length + (pots.map (·.item)).eraseDups.length

/-- The 48 B of a die in `part.status` (Table 12-10). -/
def Die.partRecord (x : Die) (p : Nat) : List Byte :=
  if x.on then
    let q := x.tab.part p
    let segs := x.tab.segsHeld p
    let ports := x.tab.portPart.foldl (fun (m : BitVec 32) e => if e.2.toNat = p then setBit m e.1 true else m) 0
    [BitVec.ofNat 8 q.state.code, if q.layer then 1 else 0, if q.restart then 1 else 0, q.circCap] ++ le 2 q.gen.toNat ++
      [BitVec.ofNat 8 segs.length, BitVec.ofNat 8 (min 255 (x.zeroPending p))] ++
      le 8 (segs.foldl (fun m g => setBit m g true) (0#64)).toNat ++ le 4 q.dirBase ++ le 4 q.dirSize ++ le 4 ports.toNat ++
      le 8 q.shares.toNat ++ le 4 q.defLease.toNat ++ [BitVec.ofNat 8 (x.potsOf p).length] ++ le 7 0
  else le 48 0

/-- PART_STATUS (R571, Table 12-10). -/
def execPartStatus (f : Frame) (part : Byte) (s : State) : Host.Outcome State Fault Refusal :=
  done (s.serveRead { op := 0x0507, change := false, len := 4 } f fun t =>
    if part.toNat > 15 then (.badField, [])
    else (.ok, allDieIds.flatMap fun d => (t.die d).partRecord part.toNat))

/-! ### Quiesce and resume -/

/-- Quiesce the virtual channels of a mask (R213, R462); in RESTART mode a mask of 0xFF fences the partition (R570). -/
def Die.quiesce (x : Die) (p : Nat) (m : Byte) : Except Status Die :=
  let q := x.tab.part p
  if q.state != .opened then .error .partState
  else
    let x := x.modTab fun t => t.modPart p fun q => { q with quiesced := q.quiesced ||| m }
    let new := bitsOf (m &&& ~~~q.quiesced)
    let x := { x with idleFrom := new.foldl (fun i v => Map.put i (8 * p + v) x.nextTick) x.idleFrom }
    .ok (if m = 0xFF then x.touch p else x)

/-- Resume the virtual channels of a mask from the next boundary (R462). -/
def Die.resume (x : Die) (p : Nat) (m : Byte) : Except Status Die :=
  if (x.tab.part p).state != .opened then .error .partState
  else .ok (x.modTab fun t => t.modPart p fun q => { q with quiesced := q.quiesced &&& ~~~m })

/-- `VC_MASK` names only VC1 and VC2 (R263). -/
def vcsInband (m : Byte) : Bool := m &&& 0xF9 == 0

/-- PART_QUIESCE (R213, R263, R462, R570). -/
def execPartQuiesce (f : Frame) (part mask vcMask : Byte) (s : State) : Host.Outcome State Fault Refusal :=
  done (s.serveMask { op := 0x0520, change := true, cap := some 1, len := 4, vcOk := vcsInband vcMask } f part mask false
    (dieAct 0x0520 6 0 1 fun x => x.quiesce part.toNat vcMask))

/-- PART_RESUME (R216, R263, R462). -/
def execPartResume (f : Frame) (part mask vcMask : Byte) (s : State) : Host.Outcome State Fault Refusal :=
  done (s.serveMask { op := 0x0521, change := true, cap := some 1, len := 4, vcOk := vcsInband vcMask } f part mask false
    (dieAct 0x0521 6 0 1 fun x => x.resume part.toNat vcMask))

end Sys2Proof.Machine
end

