-- ==== Sys2Proof/Machine/DirCmds.lean ====
section
/-! DEFINITION. The sequence directory: live entries, the commands that write and read it (spec/09, spec/13 Directory). -/

namespace Sys2Proof.Machine

/-- The owner of an entry was lost after the entry was installed (R331, R347). -/
def Tables.ownerLost (t : Tables) (e : DirEntry) : Bool :=
  match Map.look t.lost e.owner.toNat with
  | some l => later l e.install
  | none => false

/-- The age limit of an entry has not been reached in tick `n` (R85, R331). -/
def DirEntry.young (e : DirEntry) (n : Tick) : Bool := e.noAge || later e.expiry n

/-- An entry is live for a lookup in tick `n` (R331). -/
def Tables.live (t : Tables) (e : DirEntry) (n : Tick) : Bool := e.valid && e.young n && !t.ownerLost e

/-- `DST` `k` has an entry of the partition in the ACTIVE route table version. -/
def Tables.routed (t : Tables) (p k : Nat) (now : Tick) : Bool :=
  let e := t.route (t.verAt p now).sel k
  rtKind e != 0 && rtPart e == p

/-! ### Descriptors -/

/-- The fields of a descriptor lie in their ranges (R324, R472). -/
def descOk (w : BitVec 128) : Bool :=
  decide (6 ≤ sdLog2 w) && decide (sdLog2 w ≤ 12) && decide (1 ≤ sdBlocks w) && decide (sdBlocks w * 2 ^ sdLog2 w ≤ 16777216)

/-- A write changes where the entries of a descriptor lie (R327). -/
def descMoved (old new : BitVec 128) : Bool :=
  !sdValid new || sdLog2 old != sdLog2 new || sdBase old != sdBase new || sdBlocks old != sdBlocks new

/-- `dir.seq` at a die (R326, R327, R472). -/
def Die.dirSeq (x : Die) (p q : Nat) (w : BitVec 128) : Except Status Die :=
  let r := x.tab.part p
  let old := x.tab.seq p q
  let clash := (x.tab.seqsOf p).any fun e =>
    e.1 % 64 != q && overlap (sdBase w) (sdBlocks w) (sdBase e.2) (sdBlocks e.2)
  if sdValid w && !descOk w then .error .badField
  else if sdValid w && (sdBase w < r.dirBase || r.dirBase + r.dirSize < sdBase w + sdBlocks w) then .error .dirRange
  else if sdValid w && clash then .error .dirOverlap
  else
    let x := if sdValid old && descMoved old w then x.clearDir (inRange (sdBase old) (sdBlocks old)) else x
    .ok (x.modTab fun t =>
      { t with seqs := Map.put t.seqs (64 * p + q) (sdClean w) })

/-- DIR_SEQ (R323, R326, R327, R472). -/
def execDirSeq (f : Frame) (part mask seqId : Byte) (desc : BitVec 128) (s : State) : Host.Outcome State Fault Refusal :=
  done (s.serveMask { op := 0x0801, change := true, cap := some 2, len := 20 } f part mask (63 < seqId.toNat)
    (dieAct 0x0801 4 seqId.toNat 1 fun x => x.dirSeq part.toNat seqId.toNat desc))

/-! ### Entries -/

/-- Write the entry of an index. -/
def Die.putEntry (x : Die) (i : Nat) (e : DirEntry) : Die := x.modTab fun t => { t with dir := Map.put t.dir i e }

/-- INSTALL (Table 09-3, R334, R474): the outcome code of R473. -/
def Die.install (x : Die) (p q : Nat) (w : BitVec 128) (r : DirRec) : Die × Nat :=
  if !x.view.routed p r.owner.toNat x.now then (x, 4)
  else
    let age := if r.age = 0 then sdAge w else r.age.toNat
    let e : DirEntry :=
      { valid := true, part := BitVec.ofNat 4 p, seqId := BitVec.ofNat 6 q, noAge := r.noAge || age == 0,
        block := r.block.setWidth 18, owner := r.owner.setWidth 11, install := x.now, expiry := x.now + BitVec.ofNat 48 age }
    (x.putEntry (sdBase w + r.block.toNat) e, 0)

/-- REFRESH (Table 09-3, R86, R348, R474): the outcome code of R473. -/
def Die.refresh (x : Die) (w : BitVec 128) (block age : Nat) : Die × Nat :=
  let i := sdBase w + block
  let e := x.tab.entry i
  if !(x.view.live (x.view.entry i) x.now && e.valid && !Map.lookD x.cleared i false) then (x, 1)
  else if e.noAge then (x, 0)
  else
    let a := if age = 0 then sdAge w else age
    (x.putEntry i (if a = 0 then { e with noAge := true } else { e with expiry := x.now + BitVec.ofNat 48 a }), 0)

/-- EVICT (Table 09-3). -/
def Die.evict (x : Die) (w : BitVec 128) (block : Nat) : Die × Nat :=
  let i := sdBase w + block
  if (x.tab.entry i).valid then
    ({ (x.putEntry i { x.tab.entry i with valid := false }) with cleared := Map.put x.cleared i true }, 0)
  else (x, 0)

/-- One record of `dir.write` (R332, R334, R473). -/
def Die.dirRec (x : Die) (p : Nat) (r : DirRec) : Die × Nat :=
  let q := r.seqId.toNat
  let w := x.tab.seq p q
  if !(r.op == 1 || r.op == 2 || r.op == 3) then (x, 5)
  else if !sdValid w then (x, 2)
  else if sdBlocks w ≤ r.block.toNat then (x, 3)
  else if r.op = 1 then x.install p q w r
  else if r.op = 2 then x.refresh w r.block.toNat r.age.toNat
  else x.evict w r.block.toNat

/-- The records of `dir.write` in order, with their outcomes. -/
def Die.dirRecs (x : Die) (p : Nat) : List DirRec → Die × List Byte
  | [] => (x, [])
  | r :: rest =>
    let a := x.dirRec p r
    let b := Die.dirRecs a.1 p rest
    (b.1, BitVec.ofNat 8 a.2 :: b.2)

/-- A record names something that cannot exist (R430). -/
def dirRecAbsent (r : DirRec) : Bool := 63 < r.seqId.toNat || (r.op == 1 && 2047 < r.owner.toNat)

/-- DIR_WRITE (R332, R334, R335, R348, R473, R474). -/
def execDirWrite (f : Frame) (part mask : Byte) (recs : List DirRec) (s : State) : Host.Outcome State Fault Refusal :=
  let bad := recs.isEmpty || decide (64 < recs.length) || recs.any dirRecAbsent
  done (s.serveMaskWith { op := 0x0802, change := true, cap := some 2, len := 8 + 16 * recs.length } f part mask bad []
    (fun d t =>
      let r := (t.die d).dirRecs part.toNat recs
      ((t.setDie d r.1).traceDieWrite d 4 0x0802 ((recs.map fun e => e.block.toNat).headD 0) recs.length .ok, .ok, r.2))
    fun _ l => l.flatMap fun o => o ++ List.replicate (64 - o.length) 0xFF)

/-- What `dir.range` checks on a die before it walks (R475). -/
def Die.rangeCheck (x : Die) (p q first count : Nat) : Status :=
  let w := x.tab.seq p q
  if !sdValid w then .noSeq else if sdBlocks w < first + count then .outOfRange else .ok

/-- Serve `dir.range`: the die walks the blocks in order (R333); the blocks found ABSENT are counted. -/
def State.serveRange (s : State) (f : Frame) (part mask seqId : Byte) (first : BitVec 32) (count : BitVec 16)
    (walk : Die → BitVec 128 → Nat → Die × Nat) : State :=
  let p := part.toNat
  let q := seqId.toNat
  let n := count.toNat
  s.serveMaskWith { op := 0x0803, change := true, cap := some 2, len := 16 } f part mask (63 < q || n = 0 || 8192 < n) 0
    (fun d t =>
      let x := t.die d
      match x.rangeCheck p q first.toNat n with
      | .ok =>
        let w := x.tab.seq p q
        let r := (List.range n).foldl (fun (a : Die × Nat) i =>
          let b := walk a.1 w (first.toNat + i)
          (b.1, a.2 + b.2)) (x, 0)
        ((t.setDie d r.1).traceDieWrite d 4 0x0803 first.toNat n .ok, .ok, r.2)
      | st => (t.traceDieWrite d 4 0x0803 first.toNat n st, st, 0))
    fun _ l => l.flatMap fun k => le 4 k

/-- DIR_RANGE_REFRESH: `dir.range` with OP 2 (R333, R474, R475). -/
def execDirRangeRefresh (f : Frame) (part mask seqId : Byte) (first : BitVec 32) (count : BitVec 16) (age : BitVec 32)
    (s : State) : Host.Outcome State Fault Refusal :=
  done (s.serveRange f part mask seqId first count fun x w b => x.refresh w b age.toNat)

/-- DIR_RANGE_EVICT: `dir.range` with OP 3; it counts no block ABSENT (R333, R475). -/
def execDirRangeEvict (f : Frame) (part mask seqId : Byte) (first : BitVec 32) (count : BitVec 16) (s : State) :
    Host.Outcome State Fault Refusal :=
  done (s.serveRange f part mask seqId first count fun x w b => x.evict w b)

/-- The 32 B of an entry (Table 09-2). -/
def DirEntry.word (e : DirEntry) : BitVec 256 :=
  0#112 ++ e.expiry ++ e.install ++ 0#3 ++ e.owner ++ e.block ++ 0#4 ++ b1 e.noAge ++ e.seqId ++ e.part ++ b1 e.valid

/-- What `dir.read` returns: descriptor, `LIVE`, `READ_TICK` and entries, as lookups of the read tick see them (R667). -/
def Die.dirRead (x : Die) (p q first n : Nat) : List Byte :=
  let w := x.view.seq p q
  let es := (List.range n).map fun i =>
    if sdValid w && decide (first + i < sdBlocks w) then some (x.view.entry (sdBase w + first + i)) else none
  let live := (List.range n).foldl (fun (m : BitVec 128) i =>
    match es.getD i none with
    | some e => if x.view.live e x.now then setBit m i true else m
    | none => m) 0
  le 16 w.toNat ++ le 16 live.toNat ++ le 8 x.now.toNat ++
    es.flatMap fun o => match o with | some e => le 32 e.word.toNat | none => le 32 0

/-- DIR_READ (R331, R667). -/
def execDirRead (f : Frame) (part die seqId : Byte) (first : BitVec 32) (count : BitVec 16) (s : State) :
    Host.Outcome State Fault Refusal :=
  done (s.serveDie { op := 0x0804, change := false, cap := some 0, len := 12 } f part die
    (63 < seqId.toNat || 125 < count.toNat) fun d t =>
      (t, .ok, (t.die d).dirRead part.toNat seqId.toNat first.toNat count.toNat))

end Sys2Proof.Machine
end

