-- ==== Sys2Proof/Machine/RouteOps.lean ====
section
/-! DEFINITION. The path of a packet through a die: last-hop reorder (spec/05 R191 to R198), the ordering promise (R218 to R222),
circuits (R200, R201), the sequence directory (spec/09 R339 to R342), and route choice (R178 to R185, R211, R216). -/

namespace Sys2Proof.Machine

/-! ### Reorder contexts -/

/-- The packets that a flow holds in its context (R193). -/
def Die.context (x : Die) (k : Nat) : List Held :=
  x.held.filter fun h => h.bin == .reorder && flowKey h.hdr.part h.hdr.src h.hdr.dst == k

/-- Places after NEXT of a sequence number. -/
def after (next seq : BitVec 16) : Nat := (seq - next).toNat

/-- Hand on a packet of a VC3 flow whose turn has come: it leaves its context for the queue of the down port (R192). -/
def Die.deliverSpray (x : Die) (h : Held) : Die :=
  ({ x with held := x.held.filter fun g => g.bin != .reorder || g.id != h.id } : Die).enqueue { h with bin := .queue }

/-- Deliver the consecutive held packets from NEXT on (R192). -/
def Die.deliverRun (x : Die) (k : Nat) : Nat → Die
  | 0 => x
  | n + 1 =>
    match (x.context k).find? fun h => h.hdr.seq == (x.spray k).next with
    | some h => Die.deliverRun ((x.deliverSpray h).modSpray k fun f => { f with next := f.next + 1 }) k n
    | none => x

/-- Put a packet into a list ordered by distance from NEXT. -/
def insertSeq (next : BitVec 16) (h : Held) : List Held → List Held
  | [] => [h]
  | g :: r => if after next h.hdr.seq < after next g.hdr.seq then h :: g :: r else g :: insertSeq next h r

/-- The held packets of a flow in order from NEXT. -/
def Die.contextOrder (x : Die) (k : Nat) : List Held := (x.context k).foldl (fun l h => insertSeq (x.spray k).next h l) []

/-- Declare lost every missing sequence before `to`: each is counted, and the held packets before it are delivered (R194,
R196, R198, R222). -/
def Die.declareTo (x : Die) (k : Nat) (dest : BitVec 16) (index : Nat) : Die :=
  let next := (x.spray k).next
  let before := (x.contextOrder k).filter fun h => decide (after next h.hdr.seq < after next dest)
  let lost := after next dest - before.length
  let x := if lost = 0 then x else (x.modSpray k fun f => { f with loss := true }).count (cPart 7 index (keyPart k)) lost
  (before.foldl (fun (y : Die) h => y.deliverSpray h) x).modSpray k fun f => { f with next := dest }

/-- The gap timer after NEXT has advanced: it restarts while a packet is held, and the context is free otherwise (R196, R198). -/
def Die.retime (x : Die) (k : Nat) : Die :=
  let held := !(x.context k).isEmpty
  x.modSpray k fun f => { f with timer := if held then some x.now else none }

/-- Declare lost what is missing before the lowest held packet, and deliver from it on (R196). -/
def Die.declareGap (x : Die) (k index : Nat) : Die :=
  match (x.contextOrder k).head? with
  | some h => ((x.declareTo k h.hdr.seq index).deliverRun k 256).retime k
  | none => x

/-- Empty a context: declarations and runs until it holds no packet (R197). -/
def Die.emptyContext (x : Die) (k : Nat) : Nat → Die
  | 0 => x
  | n + 1 => if (x.context k).isEmpty then x else Die.emptyContext (x.declareGap k 2) k n

/-- Flows that hold a context. -/
def Die.contexts (x : Die) : Map SprayFlow := Map.keep x.sprayRx fun _ f => f.timer.isSome

/-- The flow whose gap timer started earliest; of several that started in one tick, that of the lowest key (R197 names none of them: DESIGN
CHOICE, log entry 127). -/
def Die.oldestContext (x : Die) : Option Nat :=
  (x.contexts.foldl (fun (b : Option (Nat × Nat)) e =>
    let age := match e.2.timer with | some t => (x.now - t).toNat | none => 0
    match b with
    | none => some (e.1, age)
    | some a => if a.2 < age then some (e.1, age) else b) none).map (·.1)

/-- Hold a packet in the flow's context; a flow without one takes a free context, or that of the oldest gap (R193, R197). -/
def Die.holdSpray (x : Die) (k : Nat) (h : Held) : Die :=
  let x :=
    if (x.spray k).timer.isSome || x.contexts.length < 8192 then x
    else match x.oldestContext with | some j => x.emptyContext j 256 | none => x
  let x := if (x.spray k).timer.isSome then x else x.modSpray k fun f => { f with timer := some x.now }
  { x with held := x.held ++ [{ h with id := x.nextId, bin := .reorder }], nextId := x.nextId + 1 }

/-- A VC3 packet at its destination leaf die (R191 to R195). -/
def Die.reorder (x : Die) (h : Held) : Die :=
  let k := flowKey h.hdr.part h.hdr.src h.hdr.dst
  let d := after (x.spray k).next h.hdr.seq
  let late (y : Die) : Die := y.discard h.hdr (cPart 7 3 h.hdr.part.toNat)
  if 2 ^ 15 ≤ d then late x
  else
    let x := if d < 256 then x
      else ((x.declareTo k (h.hdr.seq - 255) 0).deliverRun k 256).retime k
    if h.hdr.seq = (x.spray k).next then
      (((x.deliverSpray h).modSpray k fun f => { f with next := f.next + 1 }).deliverRun k 256).retime k
    else if (x.context k).any fun g => g.hdr.seq == h.hdr.seq then late x
    else x.holdSpray k h

/-! ### Order of VC4 to VC7 -/

/-- A packet of VC4 to VC7 at its destination leaf die: the flow's ports and loss bit after it; none for a straggler (R221). `loss` is the
loss with which a new flow begins. -/
def OrderFlow.step (f : Option OrderFlow) (inPort : Nat) (loss : Bool) : Option OrderFlow :=
  match f with
  | none => some { cur := inPort, loss := loss }
  | some f =>
    if inPort = f.cur then some f
    else if f.prev = some inPort then none
    else some { cur := inPort, prev := some f.cur, loss := true }

/-! ### Route choice -/

/-- A port may carry packets of the die's own choice (R32, R181). -/
def State.portOk (s : State) (d : DieId) (p : Nat) : Bool := (s.die d).ok p && !s.shutBridge p

/-- Eligible ports of a route entry (R32, R118, R181). -/
def State.eligible (s : State) (d : DieId) (e : BitVec 64) (dst : BitVec 11) : List Nat :=
  let x := s.die d
  match rtKind e with
  | 1 => if s.portOk d (rtPort e) then [rtPort e] else []
  | 2 =>
    let pair := [rtPort e, rtPort e + 1].filter (s.portOk d)
    if pair.isEmpty then x.upPorts (leafOf dst) (BitVec.allOnes 32) else pair
  | 3 => x.upPorts (leafOf dst) (rtMask e)
  | _ => []

/-- Choose by least cost; a choice among several ports is remembered (R183). -/
def Die.choosePort (x : Die) (part vc : Nat) (ports : List Nat) : Die × Option Nat :=
  match x.leastCost part vc ports with
  | some p => (if 1 < ports.length then { x with lastPort := Map.put x.lastPort (8 * part + vc) p } else x, some p)
  | none => (x, none)

/-- The pinned port of a flow at its ingress leaf die, chosen anew when it has none that is eligible (R184, R185). -/
def Die.pinPort (x : Die) (k part vc : Nat) (ports : List Nat) : Die × Option Nat :=
  match Map.look x.pins k with
  | none =>
    let r := x.choosePort part vc ports
    (match r.2 with | some p => { r.1 with pins := Map.put r.1.pins k { port := p } } | none => r.1, r.2)
  | some q =>
    if ports.contains q.port then (x, some q.port)
    else
      let free := match q.left with | some l => ports.filter (· != l) | none => ports
      let r := x.choosePort part vc (if free.isEmpty then ports else free)
      (match r.2 with | some p => { r.1 with pins := Map.put r.1.pins k { port := p, left := some q.port } } | none => r.1, r.2)

/-- Queue a packet at the die on its way to an egress port: at its destination leaf die through the flow's order. -/
def State.queueTo (s : State) (d : DieId) (h : Held) : State :=
  s.modDie d fun x =>
    let vc := h.hdr.vc.toNat
    let h := { h with bin := if vc = 5 then .circuit else .queue }
    if !s.isDown h.outPort || vc < 3 then x.enqueue h
    else if vc = 3 then x.reorder h
    else
      let k := flowKeyVc h.hdr.vc h.hdr.part h.hdr.src h.hdr.dst
      match OrderFlow.step (Map.look x.order k) h.inPort (x.lossOf h.hdr) with
      | none => x.discard h.hdr (cPart 9 0 h.hdr.part.toNat)
      | some f => { x with order := Map.put x.order k f }.enqueue h

/-- Route a packet by `DST` (R179 to R185, R211, R358). -/
def State.routeByDst (s : State) (d : DieId) (h : Held) : State :=
  let x := s.die d
  let part := h.hdr.part.toNat
  let vc := h.hdr.vc.toNat
  let sel := x.view.select part h.hdr.epoch h.hdr.dst.toNat x.now
  let s := if sel.2 then s.modDie d fun x => x.count (cPart 6 4 part) else s
  let drop (index : Nat) (touch : Bool) : State := s.modDie d fun x => x.discard h.hdr (cPart 6 index part) touch
  let e := sel.1
  let port := rtPort e
  if rtKind e = 0 then drop 0 false
  else if rtPart e ≠ part then drop 1 false
  else if rtKind e = 1 && 70 ≤ port then drop 0 false
  else if rtKind e = 1 && s.isDown port && (Map.look x.view.portPart port).isNone then drop 3 true
  else
    let ports := s.eligible d e h.hdr.dst
    let pinned := (vc = 4 || vc = 6 || vc = 7) && s.isDown h.inPort
    let r := if pinned then (s.die d).pinPort (flowKeyVc h.hdr.vc h.hdr.part h.hdr.src h.hdr.dst) part vc ports
      else (s.die d).choosePort part vc ports
    match r.2 with
    | none => drop 2 true
    | some p => (s.setDie d r.1).queueTo d { h with outPort := p }

/-! ### Circuits -/

/-- A VC5 packet: its circuit entry, its lease, and the egress port of the entry (R181, R182, R200, R358). -/
def State.routeCircuit (s : State) (d : DieId) (h : Held) : State :=
  let x := s.die d
  let part := h.hdr.part.toNat
  let c := h.hdr.circuit.toNat
  let e := x.view.circuit c
  let drop (key : Nat) (touch : Bool) : State := s.modDie d fun x => x.discard h.hdr key touch
  if !ccValid e || ccPart e ≠ part || ccSrc e ≠ h.hdr.src || ccDst e ≠ h.hdr.dst then drop (cPart 8 0 part) false
  else if reached x.now (x.view.lease c) then drop (cPart 8 1 part) false
  else if s.isDown (ccEgress e) && (Map.look x.view.portPart (ccEgress e)).isNone then drop (cPart 6 3 part) true
  else if !s.portOk d (ccEgress e) then drop (cPart 6 2 part) true
  else s.queueTo d { h with outPort := ccEgress e }

/-! ### The sequence directory -/

/-- What the directory answers to a request: the owner, or the `RSTAT` of the miss (R339). -/
def Die.resolve (x : Die) (h : Hdr) : Except Byte (BitVec 11) :=
  let w := x.view.seq h.part.toNat h.seqId.toNat
  let block := h.pos.toNat / 2 ^ sdLog2 w
  if !sdValid w then .error 2
  else if sdBlocks w ≤ block then .error 3
  else
    let e := x.view.entry (sdBase w + block)
    if e.valid && e.young x.now && x.view.ownerLost e then .error 4
    else if !x.view.live e x.now then .error 1
    else .ok e.owner

/-- The NOT_RESIDENT packet that replaces a missed request (R341). -/
def missReply (h : Hdr) (rstat : Byte) : Hdr :=
  { dst := h.src, src := h.src, part := h.part, vc := 7, type := 0x1B, epoch := h.epoch, seqId := h.seqId, pos := h.pos,
    tag := h.tag, rstat := rstat }

/-- A missed request becomes its reply when one descriptor of the VC7 quota is free (R342). -/
def Die.convert (x : Die) (id : Nat) : Die :=
  match x.held.find? fun h => h.id == id with
  | some h =>
    match h.bin with
    | .missed rstat =>
      let r := missReply h.hdr rstat
      match x.pickSeg r.part.toNat 0 with
      | some g =>
        if x.hasRoom r.key 0 then
          ({ x with held := x.held.filter fun k => k.id != id }).enqueue
            { h with outPort := h.inPort, hdr := r, data := [], bin := .queue, seg := g.1, cells := g.2, tick := x.now }
        else x
      | none => x
    | _ => x
  | none => x

/-- Resolve a POS_REQ at its ingress leaf die (R339 to R342). -/
def State.routeRequest (s : State) (d : DieId) (h : Held) : State :=
  let x := s.die d
  match x.resolve h.hdr with
  | .ok owner =>
    (s.modDie d fun x => x.count (cPart 12 0 h.hdr.part.toNat)).routeByDst d { h with hdr := { h.hdr with dst := owner } }
  | .error st =>
    s.modDie d fun x =>
      let x := x.count (cPart 12 st.toNat h.hdr.part.toNat)
      { x with held := x.held ++ [{ h with id := x.nextId, bin := .missed st }], nextId := x.nextId + 1 }.convert x.nextId

/-! ### All of it -/

/-- Route a packet that the die has admitted (R190). -/
def State.route (s : State) (d : DieId) (h : Held) : State :=
  let x := s.die d
  if h.hdr.vc = 5 then s.routeCircuit d h
  else if h.hdr.type = 0x18 && s.isDown h.inPort then s.routeRequest d h
  else if h.hdr.type = 0x1A && s.isDown h.inPort && 1 ≤ h.hdr.rstat.toNat && h.hdr.rstat.toNat ≤ 0x7F then
    s.modDie d fun x => x.discard h.hdr (cPart 12 5 h.hdr.part.toNat)
  else if h.hdr.vc = 3 && s.isDown h.inPort then
    let k := flowKey h.hdr.part h.hdr.src h.hdr.dst
    let q := Map.lookD x.spraySeq k 0
    (s.modDie d fun x => { x with spraySeq := Map.put x.spraySeq k (q + 1) }).routeByDst d { h with hdr := { h.hdr with seq := q } }
  else s.routeByDst d h

end Sys2Proof.Machine
end

