-- ==== Sys2Proof/WellFormed.lean ====
section
/-! DEFINITION. Well-formed commands: an operand that stands for a packet or a control word is one of its row's kind, and an operand
that stands for bytes of a fixed number has that number. Every other operand is a field that the commands themselves check
(spec/11 Table 11-4, spec/12, spec/13). -/

namespace Sys2Proof

/-- A control word of a type (spec/04 Table 04-2). -/
def isWord (type : BitVec 8) (w : CtlWord) : Bool := w.extractLsb' 0 8 == type

/-- A SWEEP word of an `OP` (spec/04 Table 04-10). -/
def isSweep (op : BitVec 4) (w : CtlWord) : Bool := isWord 0xAA w && w.extractLsb' 8 4 == op

/-- A packet: `LEN` bytes follow the header (spec/03 Table 03-2). -/
def isPacket (h : BitVec 256) (data : List Byte) : Bool := data.length == (h.extractLsb' 130 13).toNat

/-- A packet of a `TYPE` (spec/03 Table 03-4). -/
def isType (type : BitVec 5) (h : BitVec 256) (data : List Byte) : Bool := isPacket h data && h.extractLsb' 29 5 == type

/-- A packet of VC1 or VC2 with a blend head of 32 bytes (spec/07 R284). -/
def isBlend (h : BitVec 256) (data : List Byte) : Bool :=
  isPacket h data && (h.extractLsb' 26 3 == 1#3 || h.extractLsb' 26 3 == 2#3) && decide (32 ≤ data.length)

/-- `KIND` of a blend head (spec/07 Table 07-4). -/
def kindOf (data : List Byte) : BitVec 3 := (data.headD 0).extractLsb' 0 3

/-- A codeword with the levels of four lanes, or on a bridge port the 5,172 bits of a frame (spec/04 R121, R124, R130). -/
def lineOk (p : Nat) (l : Line) : Bool :=
  match l with
  | .code levels => decide (p < 64) && levels.length == 4
  | .frame bits => decide (64 ≤ p) && bits.length == 5172

/-- The command is well formed. -/
def Instr.wf : Instr → Bool
  | .tickMarker _ _ w _ => isWord 0xA1 w
  | .tickClaim _ _ w => isWord 0xA2 w
  | .flowWord _ _ w => isWord 0xA3 w
  | .ack _ _ w => isWord 0xA5 w
  | .nak _ _ w => isWord 0xA6 w
  | .trainId _ _ w => isWord 0xA8 w
  | .widthReq _ _ w => isWord 0xA9 w
  | .delayProbe _ _ w _ => isWord 0xAB w && !w.getLsbD 8
  | .delayProbeReply _ _ w _ => isWord 0xAB w && w.getLsbD 8
  | .sweepStart _ _ w => isSweep 1 w
  | .sweepKeepalive _ _ w => isSweep 2 w
  | .sweepPoint _ _ w => isSweep 3 w
  | .sweepEnd _ _ w => isSweep 5 w
  | .sweepAborted _ _ w => isSweep 6 w
  | .sweepBusy _ _ w => isSweep 7 w
  | .dataBlock (_, p) _ l _ _ | .codewordUncorrectable (_, p) l => lineOk p.val l
  | .stomp _ w => isWord 0xA7 w
  | .caddyIdRead _ eeprom => eeprom.length == 2048
  | .packetIngress _ _ h a => isPacket h a.data
  | .spray _ _ h a => isType 0x10 h a.data
  | .circuitData _ _ h a => isType 0x14 h a.data
  | .posReq _ _ h a => isType 0x18 h a.data
  | .posRsp _ _ h a => isType 0x1A h a.data
  | .echoNote _ _ h a => isType 0x12 h a.data
  | .contrib _ _ h a => isType 0x08 h a.data
  | .gatherIn _ _ h a => isType 0x09 h a.data
  | .blendPacket _ _ h a => isBlend h a.data && !(kindOf a.data == 6)
  | .blendAbort _ _ h a => isBlend h a.data && kindOf a.data == 6
  | .diag _ h a => isType 0x1F h a.data
  | .mbxReq _ _ h a => isType 0x01 h a.data
  | .mbxRsp _ _ h a => isType 0x02 h a.data
  | .mbxEvt _ _ h a => isType 0x03 h a.data
  | .idRead .. | .idCaddy .. | .idWrite .. | .idIdentify .. | .bootStatus .. | .bootReady .. | .tickConfig ..
  | .tickStatus .. | .linkStatus .. | .linkConfigHold .. | .linkConfigRelease .. | .linkConfigDisable ..
  | .linkRetrainWiden .. | .linkRetrainFull .. | .linkRetrainNarrow .. | .linkPortmap .. | .linkSweep ..
  | .linkSweepResult .. | .routeConfig .. | .routeStage .. | .routeSeal .. | .routeDiscard .. | .routeFlip ..
  | .routeStatus .. | .routeRead .. | .routeOwner .. | .routeReachRead .. | .routeReachWrite .. | .partOpen ..
  | .partClose .. | .partGrantSeg .. | .partReturnSeg .. | .partDirRange .. | .partPortsAssign .. | .partPortsUnassign ..
  | .partRestart .. | .partConfig .. | .partStatus .. | .partQuiesce .. | .partResume .. | .mgrNonce .. | .mgrKey ..
  | .mgrClaim .. | .mgrBeat .. | .mgrRelease .. | .mgrStatus .. | .grpOpen .. | .grpClose .. | .grpStatus .. | .circSetup ..
  | .circRenew .. | .circRelease .. | .circRead .. | .dirSeq .. | .dirWrite .. | .dirRangeRefresh .. | .dirRangeEvict ..
  | .dirRead .. | .congConfig .. | .pwrStateT0 .. | .pwrStateT1 .. | .pwrStateT2 .. | .pwrStateT3 .. | .pwrRamp ..
  | .pwrStatus .. | .faultRemap .. | .faultAlias .. | .faultReach .. | .ctrRead .. | .traceRead .. | .diagRead ..
  | .diagWrite .. | .diagLoop .. | .loopbackComplete .. | .evtAck .. | .evtSubscribe .. | .evtUnsubscribe .. | .fuseRead ..
  | .fuseKeyProgram .. | .fuseKeyRevoke .. | .fuseRollbackAdvance .. | .fusePrivilegeGrant .. | .fusePrivilegeDeny ..
  | .fuseDebugUnlock .. | .fuseDebugLock .. | .fuseAudit .. | .fuseUseComplete .. | .fwWrite .. | .fwVerify ..
  | .fwVerifyComplete .. | .fwActivateNextReset .. | .fwActivateNow .. | .fwStatus .. | .fmpRelay .. | .fmpRelayResponse ..
  | .icmpv6Echo .. | .neighborDiscovery .. | .mspPoll .. | .mspWrite .. | .mspDoorbell .. | .mspReadResp ..
  | .mspReadEvent .. | .mspSetLink .. | .mspStatus .. | .mspReplyReady .. | .tickBoundary .. | .markerMissing ..
  | .reparentWaitEnd .. | .tickLock .. | .holdoverLimit .. | .tickClaimSend .. | .masterTakeOffice ..
  | .delayProbePeriodic .. | .sweepKeepaliveSend .. | .sweepFarTimeout .. | .sweepPointDone ..
  | .retryTimeout .. | .laneLoss .. | .laneLock .. | .switchStart .. | .switchComplete ..
  | .switchTimeout .. | .linkFail .. | .trainBoundExpiry .. | .farSignalDetect .. | .trainComplete .. | .linkHoldDone ..
  | .caddyPresence .. | .caddyDomainBGood .. | .caddyLeverOpen .. | .caddyLeavingDone .. | .caddyWithdrawn ..
  | .caddyLeverClose .. | .caddyTempSample .. | .notResidentConvert .. | .egressSelect .. | .circuitSlotSend ..
  | .reachNoticeSend .. | .noticeRepeat .. | .collOutEffect .. | .routeFlipEffect .. | .routeRetire .. | .leaseExpiry ..
  | .gapTimeout .. | .drainedEntry .. | .xonGrant .. | .xonIdleRevoke .. | .throttleEngage .. | .throttleEnd ..
  | .oversubWindowEnd .. | .blendStageStart .. | .pourTimeout .. | .abortRecordExpiry .. | .potZeroDone ..
  | .segmentZeroDone .. | .partOpenReady .. | .remapEffect .. | .partFence .. | .fenceDiscard .. | .diePowerLost ..
  | .eccError .. | .watchdogExpiry .. | .fc4Reset .. | .tokenLapse .. | .tokenClaimDecide .. | .eventRetransmit ..
  | .inputSwitchClose .. | .bootImageCheck .. | .fuseCheck .. | .fullServiceEntry .. | .paceStep .. | .pwrTransitionDone ..
  | .busbarDropout .. | .alwaysOnLoss .. | .sensorSample .. | .throttleCapStep .. | .laneGroupShed .. | .shutdownExecute ..
  | .gradeClear .. | .wake .. | .xipMiss .. | .flashOpComplete .. | .coreSleep .. | .coreOff .. | .coreWake ..
  | .traceSync .. | .dieCorePowerGood .. | .laneGroupReturn .. | .throttleCapLift .. => true

end Sys2Proof
end

