-- ==== Sys2Proof/Machine/PacketCmds.lean ====
section
/-! DEFINITION. The arrival of a packet at a port of a die: the checks of spec/03 Table 03-5, the stamp of a down port (R96),
delivery to the FC4 (spec/11 R418), admission (spec/06 R239), and the two ways on: a route (spec/05, spec/09) or the blend stage
(spec/07). One command for each kind of packet. -/

namespace Sys2Proof.Machine

/-- A mailbox packet (Table 03-4). -/
def Hdr.mailbox (h : Hdr) : Bool := h.type == 0x01 || h.type == 0x02 || h.type == 0x03

/-- The packet belongs to the blend stage (R112). -/
def Hdr.collective (h : Hdr) : Bool := h.vc == 1 || h.vc == 2

/-- The first check of Table 03-5 that a header fails, as the index of its counter. -/
def State.ingressFault (s : State) (d : DieId) (p : Nat) (w : BitVec 256) : Option Nat :=
  let h := Hdr.ofWord w
  if !hcrcOk w then some 0
  else if decide (4096 < h.len.toNat) || h.len.toNat % 4 != 0 then some 1
  else if !typeOk h.type.toNat h.vc.toNat p then some 2
  else if !s.isDown p then none
  else
    let partOk := match Map.look (s.die d).view.portPart p with
      | some q => h.part == q
      | none => h.vc == 0 && h.type == 0x01
    if !partOk then some 3
    else if h.src ≠ s.endpointId d p then some 4
    else none

/-- A packet that fails a check: counted there once (R95); a header whose `HCRC` is wrong names no destination. A discard on an
unassigned down port is a fault of the partition (R358, R560). -/
def State.ingressDrop (s : State) (d : DieId) (p : Nat) (h : Hdr) (check : Nat) : State :=
  s.modDie d fun x =>
    if check = 0 then x.count (cPort 3 0 p)
    else x.discard h (cPort 3 check p) (check == 3 && (Map.look x.view.portPart p).isNone)

/-- Count a packet that passes R95 (spec/18 Table 18-1). -/
def Die.countRx (x : Die) (p : Nat) (h : Hdr) : Die :=
  ((x.count (ctrKey 1 p 0 h.vc.toNat 0) (cellsOf h.len.toNat)).count (cPort 1 2 p)).count (cPort 1 4 p) h.bytes

/-- The header that the die takes over: the stamp of R96 at a down port, and zero in the fields of R92. -/
def State.stamp (s : State) (d : DieId) (p : Nat) (h : Hdr) : Hdr :=
  if s.isDown p then
    let x := s.die d
    ({ h with epoch := (x.view.verAt h.part.toNat x.now).sel, mark := false, gap := false }).masked
  else h.masked

/-- A pour that needs a sibling to which both bridge ports are out of service ends with TIMEOUT at its first input (R573). -/
def State.checkBridges (s : State) (d : DieId) (k : PourKey) : State :=
  let x := s.die d
  let cut (e : DieId) : Bool :=
    e != d && !(x.port (bridgePort d e)).inService && !(x.port (bridgePort d e + 1)).inService
  if s.isLeaf && allDieIds.any (fun e => cut e && s.needsSibling d k (s.leafIndex e)) then s.abortPour d k 4 else s

/-- An input of a pour taken in: its first one at this die meets R573. -/
def State.firstInput (s t : State) (d : DieId) (k : PourKey) : State :=
  if !(s.die d).pours.any (fun q => q.key == k) && (t.die d).pours.any (fun q => q.key == k) then t.checkBridges d k else t

/-- A packet of VC1 or VC2 that the die has admitted (R265, R284, R286). A VC2 packet from an endpoint, and a packet of a group
that is not this partition's, is of no group; the reserved bits of a blend head that goes on are zero (R7). -/
def State.takeCollective (s : State) (d : DieId) (h : Held) : State :=
  let x := s.die d
  let p := h.inPort
  let w : Option Parked := some { id := x.nextId, seg := h.seg, cells := h.cells, len := h.hdr.len.toNat }
  let t := s.modDie d fun x => { x with nextId := x.nextId + 1 }
  let closed : State := s.modDie d fun x => x.discard h.hdr (cPart 11 0 h.hdr.part.toNat)
  if s.isDown p then
    if h.hdr.vc = 1 then
      s.firstInput (t.contribute d p h.hdr h.data w) d
        { group := h.hdr.group, gather := h.hdr.type = 0x09, pour := h.hdr.pour }
    else closed
  else
    let c := (x.view.group h.hdr.group.toNat).control
    let hd := BlendHead.ofWord (BitVec.ofNat 256 (leNat (h.data.take 32)))
    if !gValid c || gPart c ≠ h.hdr.part.toNat then closed
    else if s.passes d h.hdr hd then
      match s.passTo d p h.hdr.vc.toNat (leafOf h.hdr.dst) with
      | some q => s.modDie d fun x => x.enqueue { h with outPort := q, data := le 32 hd.word.toNat ++ h.data.drop 32, bin := .queue }
      | none => s.modDie d fun x => x.discard h.hdr (cPart 6 2 h.hdr.part.toNat) true
    else s.firstInput (t.blendIn d p h.hdr hd (h.data.drop 32) w) d { group := h.hdr.group, gather := hd.gather, pour := h.hdr.pour }

/-- A mailbox packet goes through port 70 to the FC4 (R33, R418), which owes its sender the echo of a mark until the end of the next tick
(R246). -/
def State.toFc4 (s : State) (d : DieId) (h : Held) : State :=
  let e := if h.hdr.mark then Map.put s.mbx.echoes (72 * d.val + h.inPort) (s.boot.now + 1) else s.mbx.echoes
  ({ s with mbx := { s.mbx with echoes := e } }.modDie d fun x => x.countTx 70 h.hdr).emit (.mailbox d h.inPort h.hdr h.data)

/-- What a die does with a packet in its buffer: to the FC4, to the blend stage, or on by a route (R33, R112). -/
def State.goOn (s : State) (d : DieId) (h : Held) : State :=
  if h.hdr.mailbox then s.toFc4 d h
  else if h.hdr.collective then s.takeCollective d h
  else s.route d h

/-- A mailbox packet of no partition: it takes segment 47 (R105). -/
def State.pooled (s : State) (d : DieId) (p : Nat) (h : Hdr) : Bool :=
  h.mailbox && !(s.isDown p && (Map.look (s.die d).view.portPart p).isSome)

/-- State key under which a port permits a packet's sender: that of the pool for mailbox packets between two Q dies (R225, R228). -/
def State.arrivalKey (s : State) (p : Nat) (h : Hdr) : Nat := if h.mailbox && !s.isDown p then 128 else h.key

/-- The segment that takes a packet, when the die admits it (R107, R239). -/
def State.admits (s : State) (d : DieId) (p : Nat) (h : Hdr) : Option (Nat × List (Nat × Nat)) :=
  let x := s.die d
  let pool := s.pooled d p h
  if x.covered p (s.arrivalKey p h) || x.hasRoom (if pool then 128 else h.key) h.len.toNat then
    (if pool then some (47, []) else x.pickSeg h.part.toNat h.len.toNat)
  else none

/-- A packet that the die admits to its buffer, or drops for lack of room (R107, R239); at a DRAINED die it is held until the resume
(R216). -/
def State.takeIn (s : State) (d : DieId) (p : Nat) (h : Hdr) (data : List Byte) (t : Nat) : State :=
  let x := s.die d
  match s.admits d p h with
  | none => s.overrunDrop d p h
  | some g =>
    let k : Held :=
      { id := x.nextId, inPort := p, outPort := 0, hdr := h, data := data, bin := .queue, seg := g.1, cells := g.2, tick := x.now }
    let u :=
      if Map.lookD x.drained h.key false && !s.pooled d p h then
        s.modDie d fun x =>
          let x := x.count (cPart 6 5 h.part.toNat)
          { x with held := x.held ++ [{ k with bin := .drained }], nextId := x.nextId + 1 }
      else (s.goOn d k).cutThrough s d p t x.nextId
    u.noteArrival d p (s.arrivalKey p h) h.bytes

/-- A DIAG packet back from port 71 (R34, R485). -/
def Die.diagBack (x : Die) (h : Hdr) (data : List Byte) : Die :=
  match x.loop with
  | some l =>
    if h.type = 0x1F then
      let same := data == (List.range h.len.toNat).map Config.diagByte
      { x with loop := some { l with received := l.received + 1, mismatched := l.mismatched + (if same then 0 else 1) } }
    else x.discard h (cPart 6 0 h.part.toNat)
  | none => x.discard h (cPart 6 0 h.part.toNat)

/-- A packet that passes the checks of R95 goes on: to the loop, or into the buffer, where its partition stands open (Table 10-2, R570); a
partition that is restarted in this tick takes none (R224). -/
def State.accept (s : State) (d : DieId) (p : Nat) (h : Hdr) (data : List Byte) (t : Nat) : State :=
  let x := s.die d
  let part := h.part.toNat
  if p = 71 then s.modDie d fun x => x.diagBack h data
  else if h.mailbox then s.takeIn d p h data t
  else if (x.view.part part).state == .closed then s.modDie d fun x => x.discard h (cPort 3 3 p)
  else if (match Map.look x.fencedAt part with | some f => reached x.now (f + 64) | none => true) &&
      (x.view.part part).state == .fenced then
    s.modDie d fun x => x.discard h (cPart 13 0 part)
  else s.takeIn d p h data t

/-- The port takes packets: its link carries them, which that of a bridge port of a spine die does not (R32), or the FC4 or the
loopback sends them (R33, R34). -/
def State.takes (s : State) (d : DieId) (p : Nat) : Bool :=
  (s.die d).on && (decide (70 ≤ p) || (((s.die d).port p).carries && !s.shutBridge p))

/-- A packet arrives at a port of a die, its header `t` after the tick boundary (R95). -/
def State.arrive (s0 : State) (d : DieId) (p : PortId) (w : BitVec 256) (data : List Byte) (t : Nat) : State :=
  let s := s0.fresh.modDie d fun x => { x with clock := t }
  let h := Hdr.ofWord w
  if !s.takes d p.val then s
  else match s.ingressFault d p.val w with
    | some check => s.ingressDrop d p.val h check
    | none =>
      let s := s.modDie d fun x => x.countRx p.val h
      s.accept d p.val (s.stamp d p.val h) data t

/-- The arrival of a packet of one row's kind; what is not of that kind is no command of the row. -/
def State.arriveAs (s : State) (row : String) (kind : BitVec 256 → List Byte → Bool) (d : DieId) (p : PortId) (w : BitVec 256)
    (data : List Byte) (t : Nat) : Host.Outcome State Fault Refusal :=
  if kind w data then done (s.arrive d p w data t) else .fault (.illFormed row)

/-- PACKET_INGRESS (R91 to R96, R357, R358, R418). -/
def execPacketIngress (d : DieId) (p : PortId) (h : BitVec 256) (a : Arrival) (s : State) :
    Host.Outcome State Fault Refusal := s.arriveAs "PACKET_INGRESS" isPacket d p h a.data a.time

/-- SPRAY (R189 to R198, R219). -/
def execSpray (d : DieId) (p : PortId) (h : BitVec 256) (a : Arrival) (s : State) : Host.Outcome State Fault Refusal :=
  s.arriveAs "SPRAY" (isType 0x10) d p h a.data a.time

/-- CIRCUIT_DATA (R200, R201). -/
def execCircuitData (d : DieId) (p : PortId) (h : BitVec 256) (a : Arrival) (s : State) :
    Host.Outcome State Fault Refusal := s.arriveAs "CIRCUIT_DATA" (isType 0x14) d p h a.data a.time

/-- POS_REQ (R339 to R342). -/
def execPosReq (d : DieId) (p : PortId) (h : BitVec 256) (a : Arrival) (s : State) : Host.Outcome State Fault Refusal :=
  s.arriveAs "POS_REQ" (isType 0x18) d p h a.data a.time

/-- NOT_RESIDENT_CONVERT (R341, R342): the buffered request of a number. -/
def execNotResidentConvert (d : DieId) (id : Nat) (s : State) : Host.Outcome State Fault Refusal :=
  done (s.fresh.modDie d fun x => if x.on then x.convert id else x)

/-- POS_RSP (R345). -/
def execPosRsp (d : DieId) (p : PortId) (h : BitVec 256) (a : Arrival) (s : State) : Host.Outcome State Fault Refusal :=
  s.arriveAs "POS_RSP" (isType 0x1A) d p h a.data a.time

/-- ECHO_NOTE (R243, R245). -/
def execEchoNote (d : DieId) (p : PortId) (h : BitVec 256) (a : Arrival) (s : State) : Host.Outcome State Fault Refusal :=
  s.arriveAs "ECHO_NOTE" (isType 0x12) d p h a.data a.time

/-- CONTRIB (R265 to R271). -/
def execContrib (d : DieId) (p : PortId) (h : BitVec 256) (a : Arrival) (s : State) : Host.Outcome State Fault Refusal :=
  s.arriveAs "CONTRIB" (isType 0x08) d p h a.data a.time

/-- GATHER_IN (R265 to R271). -/
def execGatherIn (d : DieId) (p : PortId) (h : BitVec 256) (a : Arrival) (s : State) : Host.Outcome State Fault Refusal :=
  s.arriveAs "GATHER_IN" (isType 0x09) d p h a.data a.time

/-- BLEND_PACKET (R284 to R286). -/
def execBlendPacket (d : DieId) (p : PortId) (h : BitVec 256) (a : Arrival) (s : State) :
    Host.Outcome State Fault Refusal := s.arriveAs "BLEND_PACKET" (fun h data => isBlend h data && !(kindOf data == 6)) d p h a.data a.time

/-- BLEND_ABORT (R293, R294). -/
def execBlendAbort (d : DieId) (p : PortId) (h : BitVec 256) (a : Arrival) (s : State) :
    Host.Outcome State Fault Refusal := s.arriveAs "BLEND_ABORT" (fun h data => isBlend h data && kindOf data == 6) d p h a.data a.time

/-- DIAG (R34, R485). -/
def execDiag (d : DieId) (h : BitVec 256) (a : Arrival) (s : State) : Host.Outcome State Fault Refusal :=
  s.arriveAs "DIAG" (isType 0x1F) d 71 h a.data a.time

/-- MBX_REQ (R33, R358, R418, R419). -/
def execMbxReq (d : DieId) (p : PortId) (h : BitVec 256) (a : Arrival) (s : State) : Host.Outcome State Fault Refusal :=
  s.arriveAs "MBX_REQ" (isType 0x01) d p h a.data a.time

/-- MBX_RSP (R418). -/
def execMbxRsp (d : DieId) (p : PortId) (h : BitVec 256) (a : Arrival) (s : State) : Host.Outcome State Fault Refusal :=
  s.arriveAs "MBX_RSP" (isType 0x02) d p h a.data a.time

/-- MBX_EVT (R418, R422). -/
def execMbxEvt (d : DieId) (p : PortId) (h : BitVec 256) (a : Arrival) (s : State) : Host.Outcome State Fault Refusal :=
  s.arriveAs "MBX_EVT" (isType 0x03) d p h a.data a.time

end Sys2Proof.Machine
end

