-- ==== Sys2Proof/Machine/MailOps.lean ====
section
/-! DEFINITION. What enters a die from inside the tray: the mailbox packets of the FC4 at port 70 (spec/11 R418, spec/03 R101 to R107,
spec/06 R246) and the packets of a diagnostic loop (spec/03 R34, R105; spec/13 R485). -/

namespace Sys2Proof.Machine

/-! ### Port 70 -/

/-- The header of a mailbox packet of the FC4. `DST` is the endpoint of a down port; what else the manual does not state is free
(`Config.mailIds`). -/
def State.mailHdr (s : State) (m : Mail) (echo : Bool) : Hdr :=
  let w := Config.mailIds (72 * m.d.val + m.port)
  let down := s.isDown m.port
  let part := if down then Map.look (s.die m.d).view.portPart m.port else none
  { dst := if down then s.endpointId m.d m.port else fld w 0 11, src := fld w 11 11, part := part.getD (fld w 23 4), vc := 0,
    type := m.type, epoch := bit w 22, echo := echo, len := BitVec.ofNat 13 (pad4 m.bytes).length, tag := m.tag.getD (fld w 27 16) }

/-- The FC4 owes an echo to the far end of a port, and may still send it (R246). -/
def State.owesEcho (s : State) (m : Mail) : Bool :=
  match Map.look s.mbx.echoes (72 * m.d.val + m.port) with
  | some t => !later s.boot.now t
  | none => false

/-- A mailbox packet of the FC4 enters its die at port 70: it waits with the FC4 while its buffer is full (R107), and is discarded when its
egress port is out of service (R99). -/
def State.admitOne (s : State) (m : Mail) : State :=
  let x := s.die m.d
  let h := s.mailHdr m (s.owesEcho m)
  let pool := s.pooled m.d m.port h
  let seg := if pool then some (47, []) else x.pickSeg h.part.toNat h.len.toNat
  if !(x.port m.port).inService || s.shutBridge m.port then
    s.modDie m.d fun x => (x.countRx 70 h).discard h (cPart 6 2 h.part.toNat)
  else match (if x.hasRoom (if pool then 128 else h.key) h.len.toNat then seg else none) with
    | none => s.mail m
    | some g =>
      { s with mbx := { s.mbx with echoes := Map.rem s.mbx.echoes (72 * m.d.val + m.port) } }.modDie m.d fun x =>
        (x.countRx 70 h).enqueue
          { id := 0, inPort := 70, outPort := m.port, hdr := h, data := pad4 m.bytes, bin := .queue, seg := g.1, cells := g.2,
            tick := x.now }

/-- The FC4's mailbox packets for a die enter it, oldest first, at its tick boundary (DESIGN CHOICE, log entry 130). -/
def State.admitMail (s : State) (d : DieId) : State :=
  let mine (m : Mail) : Bool := m.d == d
  let l := s.mbx.outbox
  l.foldl (fun (t : State) m => if mine m then t.admitOne m else t)
    { s with mbx := { s.mbx with outbox := l.filter fun m => !mine m } }

/-! ### Port 71 -/

/-- The packets of a diagnostic loop that the die has room for enter segment 47, on their way to port 71. -/
def Die.fillLoop (x : Die) : Nat → Die
  | 0 => x
  | n + 1 =>
    match x.loop with
    | some l =>
      if l.queued = 0 || !x.hasRoom 128 l.len then x
      else
        let h : Hdr := { Hdr.ofWord Config.diagHdr with type := 0x1F, len := BitVec.ofNat 13 l.len }
        let k : Held :=
          { id := x.nextId, inPort := 71, outPort := 71, hdr := h, data := (List.range l.len).map Config.diagByte, bin := .queue, seg := 47,
            tick := x.now }
        Die.fillLoop { x with held := x.held ++ [k], nextId := x.nextId + 1, loop := some { l with queued := l.queued - 1 } } n
    | none => x

/-- A packet of the loop that waits for port 71. -/
def Die.loopHead (x : Die) : Option Held := x.held.find? fun h => h.outPort == 71

/-- Port 71 sends the oldest packet of the loop; the loopback takes each at its own rate (R34, R89). -/
def State.sendLoop (s : State) (d : DieId) : State :=
  match (s.die d).loopHead with
  | none => s
  | some h =>
    (s.modDie d fun x =>
      let l := x.loop.map fun (l : DiagLoop) => { l with sent := l.sent + 1 }
      (({ x with held := x.held.filter fun g => g.id != h.id, loop := l } : Die).countTx 71 h.hdr).fillLoop 1).emit (.packet d 71 h.hdr.toWord h.data)

end Sys2Proof.Machine
end

