-- ==== Sys2Proof/Machine/PowerCmds.lean ====
section
/-! DEFINITION. The power commands, the pacing of domain changes, the sensors and graded responses, and what follows a loss of the
input (spec/13 Power; spec/17 R580 to R611; spec/20 R647 to R651). -/

namespace Sys2Proof.Machine

/-! ### Power states -/

/-- A partition is OPEN or REOPENING on some die (R477). -/
def State.partsInUse (s : State) : Bool :=
  allDieIds.any fun d => (s.die d).tab.parts.any fun e => e.2.state == .opened || e.2.state == .reopening

/-- Change the width of every external port in ACTIVE: to x1 on its best lane for T1, back to the width of R146 for T0 (R585). -/
def State.setWidths (s : State) (narrow : Bool) : State :=
  let one (s : State) (d : DieId) : State :=
    ((s.die d).ports.map (·.1)).foldl (fun (t : State) p =>
      let q := (t.die d).port p
      if 64 ≤ p || q.state != .active then t
      else if narrow then
        (if q.width = 1 then t else t.requestSwitch d p (laneMask (q.byScore.take 1)) false 3 false)
      else
        let m := q.chooseLanes
        if q.width < popCount m then t.requestSwitch d p m false 2 false else t) s
  allDieIds.foldl one s

/-- Begin a move to a power state (R584, R585, R591). -/
def State.moveTo (s : State) (dest : BitVec 2) (cause : BitVec 8) : State :=
  let s := ({ s with pow := { s.pow with target := some (dest, cause) } }).dropPlan
  let s := if dest = 1 then s.setWidths true else if dest = 0 then s.setWidths false else s
  s.planPower

/-- Serve `pwr.state`. -/
def State.servePwr (s : State) (f : Frame) (dest : BitVec 2) : State :=
  s.serve { op := 0x0A01, change := true, len := 4 } f fun t =>
    if 2 ≤ dest.toNat && t.partsInUse then (t, .now .partState []) else (t.moveTo dest 0, .now .accepted [])

/-- PWR_STATE_T0 (R477, R584, R585, R591). -/
def execPwrStateT0 (f : Frame) (s : State) : Host.Outcome State Fault Refusal := done (s.servePwr f 0)

/-- PWR_STATE_T1 (R477, R584 to R586, R591). -/
def execPwrStateT1 (f : Frame) (s : State) : Host.Outcome State Fault Refusal := done (s.servePwr f 1)

/-- PWR_STATE_T2 (R477, R584, R587, R588). -/
def execPwrStateT2 (f : Frame) (s : State) : Host.Outcome State Fault Refusal := done (s.servePwr f 2)

/-- PWR_STATE_T3 (R477, R584, R589, R591). -/
def execPwrStateT3 (f : Frame) (s : State) : Host.Outcome State Fault Refusal := done (s.servePwr f 3)

/-- PWR_RAMP (R478, R592). -/
def execPwrRamp (f : Frame) (rackLimit : BitVec 32) (trayShare paceShare : BitVec 16) (s : State) :
    Host.Outcome State Fault Refusal :=
  done (s.serve { op := 0x0A02, change := true, len := 8 } f fun t =>
    if rackLimit = 0 || trayShare = 0 || 1000 < trayShare.toNat || 1000 < paceShare.toNat then (t, .now .badField [])
    else
      let r : Ramp := { rackLimit := rackLimit, trayShare := trayShare, paceShare := paceShare }
      let p := { t.pow with rampNext := some r }
      ({ t with pow := p },
       .now .ok (le 4 (({ p with ramp := r }).limit.getD 0xFFFFFFFF) ++ [r.allowance, 0, 0, 0])))

/-- The `RAMP_ALLOWANCE` in force: that of the clock die's markers, the tray's own when no die is powered. -/
def State.allowanceNow (s : State) : Byte :=
  match s.clockDie with | some d => (s.die d).tick.applied | none => s.pow.ramp.allowance

/-- A reading of a sample in two bytes. -/
def reading (v : Int) : List Byte := le 2 (BitVec.ofInt 16 v).toNat

/-- The 64 B of `pwr.status` (Table 13-4). -/
def State.powerBlock (s : State) : List Byte :=
  let r := s.pow.last
  [s.pow.state.setWidth 8, s.pow.grade, s.allowanceNow, r.leak.setWidth 8] ++ le 2 r.vin ++ le 2 r.pin ++
    reading r.inlet ++ reading r.outlet ++ le 2 r.flow ++ le 2 0 ++ le 17 s.pow.domains.toNat ++ le 7 0 ++
    le 4 s.pow.ramp.rackLimit.toNat ++ le 2 s.pow.ramp.trayShare.toNat ++ le 2 s.pow.ramp.paceShare.toNat ++
    le 8 s.pow.sampleTick.toNat ++ le 8 0

/-- PWR_STATUS (R580, Table 13-4). -/
def execPwrStatus (f : Frame) (s : State) : Host.Outcome State Fault Refusal :=
  done (s.serveRead { op := 0x0A03, change := false, len := 0 } f fun t =>
    (.ok, t.powerBlock))

/-- Make the step at the head of the queue. -/
def State.makeStep (s : State) (e : PwrStep) (rest : List PwrStep) (credit : Nat) : State :=
  let s := { s with pow := { s.pow with steps := rest, credit := credit } }
  if e.last then s.domainChanged e.dom e.on else s

/-- PACE_STEP (R581, R582, R594, R595): the step at the head of the queue is made once the credit covers it. -/
def execPaceStep (s : State) : Host.Outcome State Fault Refusal :=
  let s := s.fresh
  done (match s.pow.steps with
    | [] => s
    | e :: rest =>
      match s.pow.limit with
      | none => s.makeStep e rest s.pow.credit
      | some _ =>
        let need := e.halfW * 500000
        if need ≤ s.pow.credit then s.makeStep e rest (s.pow.credit - need) else s)

/-- PWR_TRANSITION_DONE (R477, R588, R589, R590): every step is made and every core that the new state needs is good. -/
def execPwrTransitionDone (s : State) : Host.Outcome State Fault Refusal :=
  let s := s.fresh
  let ready := s.pow.steps.isEmpty && allDieIds.all fun d => !s.wantsCore d || (s.die d).on
  done (match s.pow.target with
    | none => s
    | some (dest, cause) =>
      if !ready then s
      else
        let old := s.pow.state
        let s := { s with pow := { s.pow with state := dest, target := none } }
        let s := s.raiseTray 0x0A80 (dest.setWidth 8) [old.setWidth 8, cause]
        if dest = 3 then
          ({ (s.allDies fun _ => {}) with boot := { s.boot with identify := false, identifyNext := none, ident := none } }).setStage .alwaysOn
        else if dest = 2 then s.setStage .fuseCheck
        else s)

/-! ### The input -/

/-- INPUT_SWITCH_CLOSE (R535, R647): the always-on block is powered, and the FC4 core and PHY domains follow. -/
def execInputSwitchClose (s : State) : Host.Outcome State Fault Refusal :=
  let s := s.fresh
  done (if s.boot.inputOn then s
    else
      let s := { s with pow := { s.pow with state := 0 }, boot := { s.boot with inputOn := true } }
      (s.setStage .alwaysOn).planPower)

/-- BUSBAR_DROPOUT (R596, R649): every switched domain goes off at once, and the tray is in T3. -/
def execBusbarDropout (s : State) : Host.Outcome State Fault Refusal :=
  let s := s.fresh
  done (if s.boot.inputOn then s.enterT3 none else s)

/-- What the tray keeps without power: fuses, the audit log, the flash records and banks, and what is plugged into the bays. -/
def State.unpowered (s : State) : State :=
  { State.reset with
    boot := { ({} : Boot) with records := s.boot.records, cabled := s.boot.cabled },
    tok := { ({} : Token) with store := s.tok.store },
    fuse := { s.fuse with op := none },
    fw := { ({} : Firmware) with bank0 := s.fw.bank0, bank1 := s.fw.bank1, bootBank := s.fw.bootBank, armed := s.fw.armed,
                                 staged := s.fw.staged, bytes := s.fw.bytes, desc := s.fw.desc },
    elect := { ({} : Elect) with priority := s.elect.priority, period := s.elect.period },
    bays := Map.mapVal s.bays fun _ b => { ({} : Bay) with state := if b.state == .empty then .empty else .domainA },
    free := s.free, pending := s.pending }

/-- ALWAYS_ON_LOSS (R388, R622, R650). -/
def execAlwaysOnLoss (s : State) : Host.Outcome State Fault Refusal := done s.unpowered

/-! ### Sensors and grades -/

/-- What one sample says of one sensor: throttle, shed, shutdown and clear levels met (Table 17-4). -/
structure Levels where
  throttle : Bool
  shed : Bool
  shutdown : Bool
  clear : Bool
deriving DecidableEq, Repr

/-- Levels of a sensor that is hot above each of three limits and clear up to a fourth, in 0.1 degrees. -/
def hotLevels (v a b c clear : Int) : Levels :=
  { throttle := decide (a ≤ v), shed := decide (b ≤ v), shutdown := decide (c ≤ v), clear := decide (v ≤ clear) }

/-- The tray-wide sensors of a sample by number (Table 17-4); leak sensor i is listed as 32 + i. -/
def sensorLevels (r : Sensors) : List (Nat × Levels) :=
  [(0, hotLevels r.inlet 460 490 520 450), (1, hotLevels r.outlet 600 630 660 579),
   (2, { throttle := decide (r.flow < 450), shed := decide (r.flow < 350), shutdown := decide (r.flow < 250),
         clear := decide (480 ≤ r.flow) }),
   (3, { throttle := false, shed := false, shutdown := decide (r.vin < 4000) || decide (5950 < r.vin),
         clear := decide (4000 ≤ r.vin) && decide (r.vin ≤ 5950) }),
   (4, hotLevels r.qj0 1000 1050 1100 949), (5, hotLevels r.qj1 1000 1050 1100 949),
   (6, hotLevels r.qj2 1000 1050 1100 949), (7, hotLevels r.qj3 1000 1050 1100 949),
   (8, { hotLevels r.fj 950 0 1050 899 with shed := false })] ++
    (List.range 4).map fun i => (32 + i, ⟨false, false, r.leak.getLsbD i, !r.leak.getLsbD i⟩)

/-- Reading that `pwr.thermal` carries for a sensor (R605). -/
def sensorReading (r : Sensors) (n : Nat) : List Byte :=
  match n with
  | 0 => reading r.inlet
  | 1 => reading r.outlet
  | 4 => reading r.qj0
  | 5 => reading r.qj1
  | 6 => reading r.qj2
  | 7 => reading r.qj3
  | 8 => reading r.fj
  | _ => le 2 0x8000

/-- Count consecutive samples, up to 3. -/
def bump (met : Bool) (n : Nat) : Nat := if met then min 3 (n + 1) else 0

/-- Consecutive samples of a sensor after one more. -/
def Cond.sample (c : Cond) (l : Levels) : Cond :=
  { throttle := bump l.throttle c.throttle, shed := bump l.shed c.shed, shutdown := bump l.shutdown c.shutdown }

/-- Samples that start a condition: 3, but 2 for a leak or an input fault (R604). -/
def needed (n : Nat) : Nat := if n = 3 || 32 ≤ n then 2 else 3

/-- The grade that a sensor's conditions call for. -/
def Cond.grade (c : Cond) (n : Nat) : Nat :=
  if needed n ≤ c.shutdown then 3 else if 3 ≤ c.shed then 2 else if 3 ≤ c.throttle then 1 else 0

/-- Begin a shutdown that sensor `n` calls for (R608): `GRADE` 3, and `pwr.state_change` naming the cause. It ends one second later, or at
once for a leak, an input fault or a die junction, also when it has begun for another sensor. -/
def State.beginShutdown (s : State) (n : Nat) : State :=
  let cause : BitVec 8 := if 32 ≤ n then 2 else if n = 3 then 3 else 1
  let atOnce := decide (3 ≤ n) && n != 8
  if s.pow.state = 3 && s.pow.target.isNone then s
  else if s.pow.shutdown.isSome then if atOnce then s.startTimer 6 0 else s
  else
    let old := s.pow.state
    (({ s with pow := { s.pow with grade := 3, shutdown := some cause } }).startTimer 6 (if atOnce then 0 else 1000)).raiseTray 0x0A80 3
      [old.setWidth 8, cause]

/-- A sensor's conditions after a sample: a rise of `GRADE` is reported, a leak as `pwr.leak`, and a shutdown level begins a
shutdown (R604, R605, R608). -/
def State.senseOne (s : State) (r : Sensors) (n : Nat) (l : Levels) : State :=
  let c := (Map.lookD s.pow.conds n {}).sample l
  let started := c.shutdown == needed n && (Map.lookD s.pow.conds n {}).shutdown != needed n
  let s := { s with pow := { s.pow with conds := Map.put s.pow.conds n c } }
  let g := c.grade n
  let s := if 32 ≤ n && started then s.raiseTray 0x0A82 0 [BitVec.ofNat 8 (n - 32)] else s
  let s :=
    if s.pow.grade.toNat < g then
      let s := { s with pow := { s.pow with grade := BitVec.ofNat 8 g } }
      if 32 ≤ n then s else s.raiseTray 0x0A81 s.pow.grade ([BitVec.ofNat 8 n, 0] ++ sensorReading r n)
    else s
  if g = 3 then s.beginShutdown n else s

/-- A caddy at its clear level: 5 degrees below `TEMP_WARN` (Table 17-4). -/
def Bay.clear (b : Bay) : Bool := b.state == .empty || decide (b.temp.toInt ≤ 10 * ((b.eeprom.getD 48 255).toNat : Int) - 50)

/-- Take a sample of every tray-wide sensor (R604, R605, R651). In T3, where no FC4 core runs, a sample only counts towards R590. -/
def State.takeSample (s : State) (r : Sensors) : State :=
  let ls := sensorLevels r
  let clear := ls.all (fun e => e.2.clear) && allBays.all fun c => (s.bay c).clear
  let s := { s with pow := { s.pow with last := r, sampleTick := s.boot.now,
                                        clear := if clear then s.pow.clear + 1 else 0 } }
  let s := s.startTimer 7 10
  if s.boot.stage == .alwaysOn then
    { s with pow := { s.pow with conds := ls.foldl (fun m e => Map.upd m e.1 {} fun c => c.sample e.2) s.pow.conds } }
  else
    let s := ls.foldl (fun (t : State) e => t.senseOne r e.1 e.2) s
    if s.boot.stage == .fuseCheck then s.planPower else s

/-- SENSOR_SAMPLE (R604, R605, R608, R651): 10 ms after the last. -/
def execSensorSample (r : Sensors) (s : State) : Host.Outcome State Fault Refusal :=
  let s := s.fresh
  done (if s.waits 7 then s else s.takeSample r)

/-- A bay whose caddy is at its warning temperature (R610). -/
def Bay.warned (b : Bay) : Bool := decide (3 ≤ b.warm)

/-- The data caps move by a step: the next waits 1 ms (R606, R609). -/
def State.setCaps (s : State) (cap : Nat) (bays : Map Nat) : State :=
  if cap = s.pow.cap && bays == s.pow.bayCap then s
  else ({ s with pow := { s.pow with cap := cap, bayCap := bays } }).startTimer 5 1

/-- THROTTLE_CAP_STEP (R606, R610): one more of the 8 steps towards half rate, 1 ms after the last step. -/
def execThrottleCapStep (s : State) : Host.Outcome State Fault Refusal :=
  let s := s.fresh
  let p := s.pow
  let tray := if p.grade ≠ 0 && p.cap < 8 then p.cap + 1 else p.cap
  let bays := allBays.foldl (fun m (c : BayId) =>
    if (s.bay c).warned && decide (p.bayStep c.val < 8) then Map.put m c.val (p.bayStep c.val + 1) else m) p.bayCap
  done (if s.waits 5 then s else s.setCaps tray bays)

/-- THROTTLE_CAP_LIFT (R609, R610): one of the 8 steps back, 1 ms after the last step, once every shed lane group has returned. -/
def execThrottleCapLift (s : State) : Host.Outcome State Fault Refusal :=
  let s := s.fresh
  let p := s.pow
  let back := p.grade = 0 && allDieIds.all fun d => (s.die d).shed.isEmpty
  let bays := allBays.foldl (fun m (c : BayId) =>
    if (s.bay c).warned then m else Map.put m c.val (p.bayStep c.val - 1)) p.bayCap
  done (if s.waits 5 then s else s.setCaps (if back then p.cap - 1 else p.cap) (Map.keep bays fun _ n => n != 0))

/-- A shed-level condition holds (R607). -/
def Power.shedHolds (p : Power) : Bool := p.grade == 2 && p.conds.any fun e => decide (3 ≤ e.2.shed)

/-- LANE_GROUP_SHED (R607): the highest lane group of the role's range that carries a port in service, up to 4 a die and one every
100 ms. -/
def execLaneGroupShed (d : DieId) (s : State) : Host.Outcome State Fault Refusal :=
  let s := s.fresh
  let x := s.die d
  let low := if s.isSpine then 0 else 8
  let pick := (List.range 16).reverse.find? fun g =>
    decide (low ≤ g) && !x.shed.contains g && (List.range 4).any fun i => (x.port (4 * g + i)).inService
  done (if s.pow.shedHolds && x.on && x.shed.length < 4 && !s.waits d.val then
      match pick with
      | some g => ((s.modDie d fun x => { x with shed := x.shed ++ [g] }).startTimer d.val 100).planPower
      | none => s
    else s)

/-- LANE_GROUP_RETURN (R609): the group shed last returns, the lowest-numbered die first, one every 100 ms. -/
def execLaneGroupReturn (s : State) : Host.Outcome State Fault Refusal :=
  let s := s.fresh
  done (if s.pow.grade ≠ 0 || s.waits 4 then s
    else match allDieIds.find? fun d => !(s.die d).shed.isEmpty with
      | some d => ((s.modDie d fun x => { x with shed := x.shed.dropLast }).startTimer 4 100).planPower
      | none => s)

/-- SHUTDOWN_EXECUTE (R596, R608): once the second of the shutdown has passed. -/
def execShutdownExecute (s : State) : Host.Outcome State Fault Refusal :=
  let s := s.fresh
  done (if s.pow.shutdown.isSome && !s.waits 6 then s.enterT3 (some 2) else s)

/-- GRADE_CLEAR (R604, R605, R609): every sensor has been at its clear level for 10 s, 1,000 samples. -/
def execGradeClear (s : State) : Host.Outcome State Fault Refusal :=
  let s := s.fresh
  done (if s.pow.grade ≠ 0 && 1000 ≤ s.pow.clear && s.pow.shutdown.isNone then
      let v := Config.clearDetail s.free
      let s := { s with pow := { s.pow with grade := 0 }, free := s.free + 1 }
      s.raiseTray 0x0A81 0 ([fld v 0 8, 0] ++ le 2 (fld v 8 16).toNat)
    else s)

/-- A condition of Table 17-4 holds at its shutdown level (R590). -/
def State.tooHot (s : State) : Bool :=
  s.pow.conds.any (fun e => e.2.grade e.1 == 3) || allBays.any fun c => (s.bay c).critical

/-- WAKE (R590, R655): the tray leaves T3 for T0 unless a condition holds at its shutdown level. -/
def execWake (_b : Bool) (s : State) : Host.Outcome State Fault Refusal :=
  let s := s.fresh
  done (if s.boot.inputOn && s.pow.state = 3 && s.pow.target.isNone && !s.tooHot then
      ({ s with pow := { s.pow with target := some (0, 0) } }).planPower
    else s)

end Sys2Proof.Machine
end

