-- ==== Sys2Proof/Machine/TickOps.lean ====
section
/-! DEFINITION. The tick node of a die: parent choice, lock, holdover and tick fault, the count step, and the election of the tick
master (spec/02 R49 to R78, R665; spec/15 R547, R548; spec/16 R578). -/

namespace Sys2Proof.Machine

/-! ### Markers -/

/-- The fields of a marker word (Table 02-2). -/
def mkCount (w : CtlWord) : Tick := fld w 8 48
def mkAllow (w : CtlWord) : Byte := fld w 56 8
def mkPeriod (w : CtlWord) : BitVec 2 := fld w 64 2
def mkHold (w : CtlWord) : Bool := bit w 66
def mkHop (w : CtlWord) : BitVec 4 := fld w 68 4
def mkEpoch (w : CtlWord) : Byte := fld w 72 8

/-- Fields of a claim word (Table 02-4). -/
def clPrio (w : CtlWord) : Byte := fld w 8 8
def clSerial (w : CtlWord) : BitVec 48 := fld w 16 48
def clEpoch (w : CtlWord) : Byte := fld w 64 8

/-- The link of a port carries markers (R52, R55). -/
def Port.marks (q : Port) : Bool :=
  match q.state with | .activePw | .active | .sweep => true | .held => q.lanes != 0 | _ => false

/-- Offset within 1.5 ns, in 1/16 ns (R66). -/
def inBound (offset : Int) : Bool := decide (-24 ≤ offset ∧ offset ≤ 24)

/-! ### The count step (R547) -/

/-- Ticks of a set of tables moved by a count step. -/
def Tables.shift (t : Tables) (k : Tick) : Tables :=
  { t with
    leases := Map.mapVal t.leases fun _ v => v + k,
    dir := Map.mapVal t.dir fun _ e => { e with install := e.install + k, expiry := e.expiry + k },
    lost := Map.mapVal t.lost fun _ v => v + k,
    vers := Map.mapVal t.vers fun _ v => { v with flip := v.flip.map (· + k), retire := v.retire.map (· + k) } }

/-- Ticks of a port moved by a count step. -/
def Port.shift (q : Port) (k : Tick) : Port :=
  { q with
    sw := q.sw.map fun w => { w with tick := w.tick + k, start := w.start + k },
    oldSkid := q.oldSkid.map fun o => (o.1, o.2 + k),
    fails := q.fails.map (· + k),
    nakSent := q.nakSent.map fun n => (n.1, n.2 + k),
    marker := q.marker.map fun m => { m with tick := m.tick + k },
    xoffs := Map.mapVal q.xoffs fun _ o => { o with tick := o.tick + k },
    lastRx := Map.mapVal q.lastRx fun _ v => v + k,
    sent := q.sent.map fun o => (o.1 + k, o.2),
    probed := q.probed.map (· + k), ackTick := q.ackTick + k, busy := q.busy.map fun o => (o.1 + k, o.2),
    near := q.near.map fun n => { n with lastSent := n.lastSent + k, since := n.since + k },
    far := q.far.map fun f => { f with last := f.last + k, since := f.since + k } }

/-- A job of a zeroing engine moved by a count step. -/
def ZeroJob.shift (j : ZeroJob) (ns : Nat) (old new : Tick) : ZeroJob :=
  { j with endNs := j.endNs - old.toNat * ns + new.toNat * ns }

/-- The die takes the count `new`: every tick it holds keeps its distance (R547). -/
def Die.stepTo (x : Die) (new : Tick) : Die :=
  let k := new - x.now
  { x with
    now := new,
    tick := { x.tick with drop := x.tick.drop.map fun o => (o.1 + k, o.2) },
    view := x.view.shift k, tab := x.tab.shift k,
    ports := Map.mapVal x.ports fun _ q => q.shift k,
    held := x.held.map fun h => { h with tick := h.tick + k },
    sprayRx := Map.mapVal x.sprayRx fun _ f => { f with timer := f.timer.map (· + k) },
    segJobs := x.segJobs.map fun j => j.shift x.ns x.now new,
    potJobs := x.potJobs.map fun j => j.shift x.ns x.now new,
    pots := Map.mapVal x.pots fun _ e => { e with freed := e.freed.map (· + k) },
    pours := x.pours.map fun p => { p with first := p.first + k, lastIn := p.lastIn + k },
    aborts := x.aborts.map fun r => { r with tick := r.tick + k, until_ := r.until_ + k },
    collNext := x.collNext.map fun c => (c.1 + k, c.2),
    idleFrom := Map.mapVal x.idleFrom fun _ v => v + k,
    overrun := Map.mapVal x.overrun fun _ o => (o.1 + k, o.2),
    fencedAt := Map.mapVal x.fencedAt fun _ v => v + k,
    remaps := Map.mapVal x.remaps fun _ r => { r with effect := r.effect + k } }

/-- The always-on counter steps to `new`, and with it the ticks that the FC4 holds (R548); a SYNC falls due (R627). -/
def State.stepFc4 (s : State) (new : Tick) : State :=
  let k := new - s.boot.now
  { s with
    boot := { s.boot with now := new, identifyNext := s.boot.identifyNext.map fun o => (o.1 + k, o.2) },
    tok := { s.tok with lapse := s.tok.lapse + k, release := s.tok.release.map (· + k),
                        claims := s.tok.claims.map fun c => { c with tick := c.tick + k } },
    notes := { s.notes with sent := s.notes.sent.map fun o => (o.1, o.2 + k) },
    elect := { s.elect with claim := s.elect.claim.map fun o => (o.1, o.2 + k) },
    evs := { s.evs with queues := Map.mapVal s.evs.queues fun _ q => q.map fun e => { e with sent := e.sent + k } },
    pow := { s.pow with timers := Map.mapVal s.pow.timers fun _ t => t + k },
    mbx := { s.mbx with echoes := Map.mapVal s.mbx.echoes fun _ t => t + k },
    trace := { s.trace with syncDue := true, cores := Map.mapVal s.trace.cores fun _ c => { c with worked := c.worked + k } } }

/-- A die takes a count, and the always-on counter with it when it follows that die (R547, R548). -/
def State.takeCount (s : State) (d : DieId) (new : Tick) : State :=
  let follows := s.clockDie == some d
  let s := s.modDie d fun x => x.stepTo new
  if follows then s.stepFc4 new else s

/-! ### States of a node -/

/-- The die with its tick node changed. -/
def Die.modTick (x : Die) (f : TickNode → TickNode) : Die := { x with tick := f x.tick }

/-- A die enters TICK_FAULT for a cause of Table 12-5 (R70, R77, R78, R560, R578). A master die that does so leaves office, since a
node in TICK_FAULT sends `HOLDOVER` 1 and a master die sends 0 (Table 02-2; DEDUCED, log entry 74). -/
def State.tickFault (s : State) (d : DieId) (cause : Nat) : State :=
  let n := (s.die d).tick.holdTicks
  let s := s.modDie d fun x => x.modTick fun t =>
    { t with state := .tickFault, faultCause := BitVec.ofNat 8 cause, hold := true, parent := none, nextParent := none, drop := none,
             within := 0, master := false }
  let s := s.raiseDie 0x0280 d 0xFF 0xFF 0xFF (BitVec.ofNat 8 cause) (le 4 n.toNat)
  let s := s.abortAll d 4 fun _ => true
  s.modDie d fun x =>
    (x.tab.parts.filter fun e => e.2.state == .opened).foldl (fun (y : Die) e => y.touch e.1) x

/-- A node drops its tick parent and enters HOLDOVER (R67). -/
def Die.dropParent (x : Die) : Die :=
  x.modTick fun t =>
    { t with state := .holdover, parent := none, nextParent := none, drop := some (x.now, t.epoch), within := 0,
             holdTicks := if t.state == .holdover then t.holdTicks else 0 }

/-- The node enters LOCKED (R66). -/
def Die.lock (x : Die) : Die :=
  x.modTick fun t => { t with state := .locked, everLocked := true, hold := false, holdTicks := 0, faultCause := 0 }

/-- Ports that may be chosen as tick parent, with their markers (R59, R60, R68); for a master die, those of a later epoch than its own
(R665). -/
def Die.candidates (x : Die) : List (Nat × MarkerInfo) :=
  x.ports.filterMap fun e =>
    let q := x.port e.1
    match q.marker with
    | some m =>
      let barred := match x.tick.drop with
        | some (t, ep) => m.epoch == ep && within x.now t 16
        | none => false
      if q.marks && q.missing == 0 && !m.holdover && m.hop != 15 && !barred &&
          (!x.tick.master || laterEpoch m.epoch x.tick.epoch) then some (e.1, m) else none
    | none => none

/-- A marker is the better choice of parent: a later epoch, then fewer hops (R59). -/
def MarkerInfo.better (a b : MarkerInfo) : Bool :=
  laterEpoch a.epoch b.epoch || (a.epoch == b.epoch && decide (a.hop.toNat < b.hop.toNat))

/-- The best of some ports, the lowest port number first among equals (R59). -/
def bestPort (l : List (Nat × MarkerInfo)) : Option (Nat × MarkerInfo) :=
  l.foldl (fun b c => match b with | none => some c | some a => if c.2.better a.2 then some c else b) none

/-- The node keeps its parent against a marker of another port (R59). -/
def Die.keeps (x : Die) (m : MarkerInfo) : Bool :=
  match x.tick.parent with
  | none => false
  | some q => match (x.port q.val).marker with | some c => !m.better c | none => false

/-- The parent to which the markers that the node holds move it at the next boundary, if any does (R59). -/
def Die.choice (x : Die) : Option PortId :=
  match bestPort x.candidates with
  | none => none
  | some (p, m) => if h : p < 72 then (if x.keeps m then none else some ⟨p, h⟩) else none

/-- The node chooses the parent to which it moves at the next boundary; a later choice of the tick replaces an earlier one (R59,
R665). -/
def Die.choose (x : Die) : Die :=
  if x.tick.state == .tickFault then x else x.modTick fun t => { t with nextParent := x.choice }

/-! ### Lineages -/

/-- Raise `tick.master_change` once a tray: for the die that the always-on counter follows (R665, spec/02 Worked through). -/
def State.noteLineage (s : State) (d : DieId) (epoch : Byte) (hop : BitVec 4) : State :=
  if s.clockDie == some d then s.raiseDie 0x0283 d 0xFF 0xFF 0xFF 0 [epoch, hop.setWidth 8] else s

/-- What a node takes over from an accepted marker of its parent (R56, R57, R59). -/
def Die.follow (x : Die) (m : MarkerInfo) : Die :=
  x.modTick fun t =>
    { t with hop := m.hop + 1, epoch := m.epoch, allowance := m.allowance, offset := m.offset, accepted := true,
             within := if inBound m.offset then t.within + 1 else 0 }

/-- TICK_FAULT for a marker whose `PERIOD` differs from the node's own (R78). -/
def State.periodFault (s : State) (d : DieId) (m : MarkerInfo) : State :=
  (s.tickFault d 3).raiseDie 0x0282 d 0xFF 0xFF 0xFF (m.period.setWidth 8) []

/-- The node counts on a lineage: it is LOCKED or in HOLDOVER (R77, R78). -/
def TickNode.counts (t : TickNode) : Bool := t.state == .locked || t.state == .holdover

/-- A marker of the node's tick parent (R57, R66, R67, R77, R78). A node in HOLDOVER locks at the first marker that it accepts from a
parent when that one is within the bound, and otherwise by TICK_LOCK. -/
def State.parentMarker (s : State) (d : DieId) (m : MarkerInfo) : State :=
  let x := s.die d
  let t := x.tick
  let fresh := t.epoch != m.epoch
  if m.holdover || m.hop = 15 then s.modDie d fun x => x.dropParent
  else if t.state == .unlocked then
    let s := s.modDie d fun x => x.modTick fun t => { t with period := m.period }
    let s := if x.now = m.count then s else s.takeCount d m.count
    s.modDie d fun x => x.follow m
  else if fresh && x.now ≠ m.count then
    (s.tickFault d 2).raiseDie 0x0281 d 0xFF 0xFF 0xFF 0 (le 8 m.count.toNat)
  else if m.period ≠ t.period then s.periodFault d m
  else
    let s := s.modDie d fun x => x.follow m
    let s := if fresh && t.everLocked then s.noteLineage d m.epoch (m.hop + 1) else s
    if t.state == .holdover && !t.accepted && inBound m.offset then s.modDie d fun x => x.lock else s

/-- A boundary without a marker on a port: two in a row at the parent drop it (R55, R67). -/
def Die.missMarker (x : Die) (p : Nat) : Die :=
  let x := x.modPort p fun q => { q with missing := q.missing + 1 }
  let parent := match x.tick.parent with | some q => q.val == p | none => false
  if parent && decide (2 ≤ (x.port p).missing) then x.dropParent else x

/-- What a port's marker says; the parent's boundary lies at its arrival less the one-way delay of the link (R63). `arrival` is counted
from the die's boundary of its present tick, in units of 1/16 ns. -/
def Die.markerInfo (x : Die) (p : Nat) (w : CtlWord) (arrival : Int) : MarkerInfo :=
  { count := mkCount w, allowance := mkAllow w, period := mkPeriod w, holdover := mkHold w, hop := mkHop w, epoch := mkEpoch w,
    tick := x.now, offset := arrival - ((x.port p).delay.toNat : Int) }

/-- A valid marker is kept as its port's last, and one of `HOLDOVER` 0 ends the silence that R73 counts. -/
def Die.keepMarker (x : Die) (p : Nat) (m : MarkerInfo) : Die :=
  let x := x.modPort p fun q => { q with marker := some m, missing := 0 }
  if m.holdover then x else x.modTick fun t => { t with quiet := 0, loud := true }

/-- The highest `MASTER_EPOCH` heard, with one more (R73). -/
def Elect.hear (e : Elect) (epoch : Byte) : Elect :=
  { e with heard := some (match e.heard with | some h => if laterEpoch epoch h then epoch else h | none => epoch) }

/-- TICK_MARKER (R54 to R68, R77, R78, R132, R547, R548, R665). -/
def execTickMarker (d : DieId) (p : PortId) (w : CtlWord) (arrival : Int) (s : State) : Host.Outcome State Fault Refusal :=
  let s := s.fresh
  let x := s.die d
  done (if !x.on || !(x.port p.val).marks then s
    else if cwType w ≠ 0xA1 then s.modDie d fun x => x.count (cPort 2 0 p.val)
    else if !mcrcOk w then
      s.modDie d fun x => (((x.count (cPort 2 0 p.val)).count (cPort 4 0 p.val)).missMarker p.val).choose
    else if mkPeriod w = 3 then s.modDie d fun x => ((x.count (cPort 4 0 p.val)).missMarker p.val).choose
    else
      let m := x.markerInfo p.val w arrival
      let s := s.modDie d fun x => x.keepMarker p.val m
      let s := if s.clockDie == some d then { s with elect := s.elect.hear m.epoch } else s
      if x.tick.counts && m.epoch == x.tick.epoch && m.period != x.tick.period then s.periodFault d m
      else
        let s := if x.tick.parent == some p then s.parentMarker d m else s
        s.modDie d fun x => x.choose)

/-- MARKER_MISSING (R55, R67): a link in SWITCH counts none, but its boundaries pass without a marker. -/
def execMarkerMissing (d : DieId) (p : PortId) (s : State) : Host.Outcome State Fault Refusal :=
  let s := s.fresh
  let x := s.die d
  let q := x.port p.val
  done (if x.on && q.marker.isSome then
      s.modDie d fun x => ((if q.marks then x.count (cPort 4 0 p.val) else x).missMarker p.val).choose
    else s)

/-- REPARENT_WAIT_END (R68). -/
def execReparentWaitEnd (d : DieId) (s : State) : Host.Outcome State Fault Refusal :=
  let s := s.fresh
  let x := s.die d
  done (match x.tick.drop with
    | some (t, _) =>
      if x.on && !within x.now t 16 then s.modDie d fun x => (x.modTick fun t => { t with drop := none }).choose else s
    | none => s)

/-- TICK_LOCK (R66). -/
def execTickLock (d : DieId) (s : State) : Host.Outcome State Fault Refusal :=
  let s := s.fresh
  let t := (s.die d).tick
  done (if (s.die d).on && (t.state == .unlocked || t.state == .holdover) && t.parent.isSome && 16 ≤ t.within then
      s.modDie d fun x => x.lock
    else s)

/-- HOLDOVER_LIMIT (R70). -/
def execHoldoverLimit (d : DieId) (s : State) : Host.Outcome State Fault Refusal :=
  let s := s.fresh
  let t := (s.die d).tick
  done (if (s.die d).on && t.state == .holdover && 262144 ≤ t.holdTicks.toNat then s.tickFault d 1 else s)

/-! ### The election -/

/-- Claim `a` is better than claim `b` (R74). -/
def betterClaim (a b : CtlWord) : Bool :=
  laterEpoch (clEpoch a) (clEpoch b) ||
    (clEpoch a == clEpoch b &&
      (decide ((clPrio b).toNat < (clPrio a).toNat) ||
        (clPrio a == clPrio b && decide ((clSerial a).toNat < (clSerial b).toNat))))

/-- Ports of a die whose link is trained. -/
def Die.trained (x : Die) : List Nat := (x.ports.filter fun e => e.2.marks).map (·.1)

/-- The claim word of this tray for an epoch (R73). -/
def State.ownClaim (s : State) (epoch : Byte) : CtlWord :=
  claimWord s.elect.priority (s.fuse.bits.extractLsb' 0 48) epoch s.elect.period

/-- The epoch of the next claim (R73). -/
def Elect.nextEpoch (e : Elect) : Byte := match e.heard with | some h => h + 1 | none => 1

/-- A claim is better than the best that the die has forwarded for its epoch (R75). -/
def Die.newsClaim (x : Die) (w : CtlWord) : Bool :=
  match Map.look x.bestClaim (clEpoch w).toNat with | some b => betterClaim w b | none => true

/-- Send a claim word on every trained port but one (R73, R75). -/
def State.spreadClaim (s : State) (d : DieId) (w : CtlWord) (except : Option Nat) : State :=
  ((s.die d).trained.filter fun p => some p != except).foldl (fun (t : State) p => t.emit (.word d p w)) s

/-- TICK_CLAIM_SEND (R71, R73). A tray whose claim die has already forwarded a claim of that epoch that its own does not beat has heard
a better one, and withdraws as it claims (R76). -/
def execTickClaimSend (s : State) : Host.Outcome State Fault Refusal :=
  let s := s.fresh
  done (match s.clockDie with
    | none => s
    | some d =>
      let x := s.die d
      let e := s.elect.nextEpoch
      if s.isSpine && s.elect.priority ≠ 0 && !x.tick.master && 16 ≤ x.tick.quiet && s.elect.claim.isNone &&
          s.elect.withdrawn ≠ some e then
        let w := s.ownClaim e
        let s := s.spreadClaim d w none
        if x.newsClaim w then
          ({ s with elect := { s.elect with claim := some (e, x.now) } } : State).modDie d fun x =>
            { x with bestClaim := Map.put x.bestClaim e.toNat w }
        else { s with elect := { s.elect with withdrawn := some e } }
      else s)

/-- A claim word as it is forwarded, its reserved bits zero (R7). -/
def claimClean (w : CtlWord) : CtlWord := claimWord (clPrio w) (clSerial w) (clEpoch w) (fld w 72 2)

/-- TICK_CLAIM (R74 to R76, R132). -/
def execTickClaim (d : DieId) (p : PortId) (w : CtlWord) (s : State) : Host.Outcome State Fault Refusal :=
  let s := s.fresh
  let x := s.die d
  done (if !x.on || !(x.port p.val).marks then s
    else if !mcrcOk w || cwType w ≠ 0xA2 then s.modDie d fun x => x.count (cPort 2 0 p.val)
    else
      let v := claimClean w
      let s := if x.newsClaim v then
          (s.spreadClaim d v (some p.val)).modDie d fun x => { x with bestClaim := Map.put x.bestClaim (clEpoch v).toNat v }
        else s
      match s.elect.claim with
      | some (c, _) =>
        if s.clockDie == some d && betterClaim v (s.ownClaim c) then
          { s with elect := { s.elect with claim := none, withdrawn := some c } }
        else s
      | none => s)

/-- MASTER_TAKE_OFFICE (R51, R76): the claim die of the tray becomes the master die. The rules do not say what a claim die in
TICK_FAULT does: it claims as any other and is LOCKED from its office on (DESIGN CHOICE, log entry 74). -/
def execMasterTakeOffice (s : State) : Host.Outcome State Fault Refusal :=
  let s := s.fresh
  done (match s.clockDie, s.elect.claim with
    | some d, some (e, t) =>
      let x := s.die d
      if within x.now t 8 then s
      else
        let s := if x.tick.everLocked then s
          else (s.takeCount d s.boot.now).modDie d fun x => x.modTick fun t => { t with period := s.elect.period }
        let s := { s with elect := { s.elect.hear e with claim := none } }
        let s := s.modDie d fun x => x.lock.modTick fun t =>
          { t with master := true, epoch := e, hop := 0, parent := none, nextParent := none, drop := none, quiet := 0 }
        s.raiseDie 0x0283 d 0xFF 0xFF 0xFF 0 [e, 0]
    | _, _ => s)

end Sys2Proof.Machine
end

