-- ==== Sys2Proof/Machine/BoundaryCmds.lean ====
section
/-! DEFINITION. The tick boundary of a node (spec/02 R49 to R61, R83, R84) and what the chapters let fall due at it in flow control and
congestion (spec/06). -/

namespace Sys2Proof.Machine

/-! ### Markers -/

/-- The `RAMP_ALLOWANCE` that a die's marker for the tick it has just begun carries (R56, R58, R598). The FC4's settings at the
start of the tick before are those of `allowPrev` once the always-on counter has reached the tick too. -/
def State.markerAllowance (s : State) (d : DieId) : Byte :=
  let x := s.die d
  if x.tick.master then (if reached s.boot.now x.now then s.pow.allowPrev else s.pow.ramp.allowance)
  else if x.tick.everLocked then x.tick.allowance else 0

/-- `HOLDOVER` of a die's markers (R59). -/
def TickNode.sendsHold (t : TickNode) : Bool :=
  !(t.master || (t.parent.isSome && (t.state == .unlocked || t.state == .locked)))

/-- The marker word of a die (Table 02-2). -/
def State.markerOf (s : State) (d : DieId) : CtlWord :=
  let x := s.die d
  markerWord x.now (s.markerAllowance d) x.tick.period x.tick.sendsHold x.tick.hop x.tick.epoch

/-- What a port sends at a boundary: the marker, the refresh of its FLOW states, and an ACK of what it has accepted (R52, R53,
R137, R227). -/
def State.boundaryWords (s : State) (d : DieId) (p : Nat) : List CtlWord :=
  let x := s.die d
  let q := x.port p
  if !q.marks then []
  else s.markerOf d :: (x.refreshWords p ++ (if 0 < q.rxUnacked then [ackWord q.rxNext] else []))

/-- A tick frame begins on a port: its first words, and then the data blocks that wait (R125, R127). -/
def State.beginFrame (s : State) (d : DieId) (p : Nat) : State :=
  let x := s.die d
  let q := x.port p
  if !q.marks then s
  else
    let s := s.emit (.tickFrame d p (codewordsOf x.ns p q.width q.fullRate) (q.pad x.ns p))
    let s := (s.boundaryWords d p).foldl (fun (t : State) w => t.emit (.word d p w)) s
    (s.modDie d fun x => x.modPort p fun q => { q with rxUnacked := 0 }).pump d p

/-- The die moves to the parent it has chosen, and takes up what the last marker of that parent said (R59, R61, R66, R77). A master die
leaves office by it, which the FC4 reports once (R665). -/
def State.moveParent (s : State) (d : DieId) : State :=
  let x := s.die d
  match x.tick.nextParent with
  | none => s
  | some p =>
    let s := s.modDie d fun x => x.modTick fun t =>
      { t with parent := some p, nextParent := none, master := false, accepted := false }
    match (x.port p.val).marker with
    | some m =>
      let s := s.parentMarker d { m with count := m.count + (x.now - m.tick), tick := x.now }
      if x.tick.master && (s.clockDie != some d || (s.die d).tick.state == .tickFault) then
        s.raiseDie 0x0283 d 0xFF 0xFF 0xFF 0 [m.epoch, (m.hop + 1).setWidth 8]
      else s
    | none => s

/-! ### Congestion (spec/06 R242, R251 to R255) -/

/-- Threshold at which throttle engages on a queue; `backstop` where that of ECHO mode engages it (Table 06-5, R242). -/
def Die.throttleAt (x : Die) (port part vc : Nat) (backstop : Bool) : Nat :=
  (x.view.congOf part vc).throttle.toNat * (x.port port).nowWidth * (if backstop then 4 else 1)

/-- Throttle of a queue ends: it is below half the threshold that engaged it (R254). -/
def Die.throttleOver (x : Die) (port part vc : Nat) (backstop : Bool) : Bool :=
  decide (2 * x.queueBytes port part vc < x.throttleAt port part vc backstop)

/-- Down ports with a packet of a queue (R252). -/
def Die.feeders (x : Die) (port part vc : Nat) : List Nat :=
  (List.range 32).filter fun p => x.held.any fun h =>
    h.inPort == p && h.outPort == port && (h.bin == .queue || h.bin == .circuit) && h.hdr.part.toNat == part && h.hdr.vc.toNat == vc

/-- Cap in bytes a tick that a throttled queue puts on each of its feeders (R252), rounded down to a byte (DESIGN CHOICE, log entry 68). -/
def Die.capOf (x : Die) (port part vc : Nat) : Nat :=
  let q := x.port port
  blocks4 x.ns q.nowWidth q.fullRate * 8 / max 1 (x.feeders port part vc).length

/-- The lowest cap on a down port for a state key, if any queue caps it (R252). -/
def Die.capFor (x : Die) (p key : Nat) : Option Nat :=
  x.throttled.foldl (fun (m : Option Nat) e =>
    if e.1 % 128 = key && (x.feeders (e.1 / 128) (key / 8) (key % 8)).contains p then
      let c := x.capOf (e.1 / 128) (key / 8) (key % 8)
      some (match m with | some n => min n c | none => c)
    else m) none

/-- The caps counted afresh: a bucket starts full, keeps its level, and lapses with its cap (R252, R253). -/
def Die.recap (x : Die) : Die :=
  { x with ports := Map.mapVal x.ports fun p q =>
      if 32 ≤ p then q
      else
        let keys := (x.throttled.map fun e => e.1 % 128).eraseDups
        { q with buckets := keys.foldl (fun (m : Map Bucket) k =>
            match x.capFor p k with
            | some c => Map.put m k
                { level := (match Map.look q.buckets k with | some b => x.levelOf b | none => (8256 * x.byteUnit : Nat)), rate := c,
                  at_ := x.clock }
            | none => m) [] } }

/-- Every bucket of a port filled to the end of the tick, and counted from the boundary on (R253). -/
def Die.refill (x : Die) (q : Port) : Port :=
  { q with buckets := Map.mapVal q.buckets fun _ b =>
      { b with level := ({ x with clock := 16 * x.ns } : Die).levelOf b, at_ := 0 } }

/-- Count a tick of every queue on which throttle stays engaged, and note it for the window (R251, R255). -/
def Die.countThrottle (x : Die) : Die :=
  x.throttled.foldl (fun (y : Die) e =>
    let port := e.1 / 128
    let part := e.1 % 128 / 8
    let vc := e.1 % 8
    if y.throttleOver port part vc e.2 then y
    else { (y.count (cPartVc 10 1 part vc)) with window := Map.upd y.window e.1 0 fun n => n ||| 2 }) x

/-! ### Flow control at a boundary -/

/-- State keys of one port. -/
def stateKeys : List Nat := List.range 129

/-- XOFF on every port that holds XON although a holder of R635 withholds it. -/
def State.xoffWithheld (s : State) (d : DieId) : State :=
  ((s.die d).carryPorts).foldl (fun (t : State) p =>
    stateKeys.foldl (fun (t : State) k =>
      if ((t.die d).port p).holdsXon k && t.withholds d p k then t.sendXoff d p k else t) t) s

/-- `flow.xoff.ticks`: one for each port and virtual channel with a packet that waits for XON (spec/18 Table 18-1). -/
def Die.countXoff (x : Die) : Die :=
  x.carryPorts.foldl (fun (y : Die) p =>
    (List.range 8).foldl (fun (y : Die) v =>
      if (List.range 16).any (fun a => x.waitsFor p (8 * a + v)) || (v == 0 && x.waitsFor p 128) then
        y.count (ctrKey 5 p 0 v 1) else y) y) x

/-- State keys that a resume has freed. -/
def Die.resumed (x : Die) : List Nat :=
  (List.range 128).filter fun k =>
    !bit (x.view.part (k / 8)).quiesced (k % 8) &&
      ((Map.look x.idleFrom k).isSome || Map.lookD x.drained k false)

/-- A resume takes effect: the packets held at the DRAINED die go on by the tables in force (R216, R462). -/
def State.resumeHeld (s : State) (d : DieId) : State :=
  let x := s.die d
  let keys := x.resumed
  if keys.isEmpty then s
  else
    let mine (h : Held) : Bool := h.bin == .drained && keys.contains h.hdr.key
    let s := s.modDie d fun x =>
      { x with
        drained := Map.keep x.drained fun k _ => !keys.contains k,
        idleFrom := Map.keep x.idleFrom fun k _ => !keys.contains k,
        held := x.held.filter fun h => !mine h }
    (x.held.filter mine).foldl (fun (t : State) h => t.goOn d { h with bin := .queue }) s

/-- A packet of the state key is held, those of R216 apart. -/
def Die.holdsKey (x : Die) (k : Nat) : Bool :=
  x.held.any (fun h => h.bin != .drained && h.seg != 47 && h.hdr.key == k) ||
    x.pours.any fun q => q.part.toNat == k / 8 && placeVc q.place == k % 8 && !q.waits.isEmpty

/-- A quiesced virtual channel that holds a packet at the start of a tick does not count that tick (R214). -/
def Die.noteIdle (x : Die) : Die :=
  { x with idleFrom := Map.mapVal x.idleFrom fun k t => if x.holdsKey k then x.nextTick else t }

/-- Packets queued for a down port that no partition holds are discarded (R358). -/
def State.dropUnassigned (s : State) (d : DieId) : State :=
  s.modDie d fun x =>
    x.discardHeld (fun h => s.isDown h.outPort && (h.bin == .queue || h.bin == .circuit) &&
      (Map.look x.view.portPart h.outPort).isNone) (fun h => cPart 6 3 h.hdr.part.toNat) true

/-! ### The boundary -/

/-- The die's count advances; the writes of the tick that ends become visible, and what is counted per tick is counted (R49, R57,
R70, R73, R84, R186, R361, R618). -/
def Die.advance (x : Die) : Die :=
  let x : Die := { x with
    now := x.nextTick, clock := 0, view := x.tab, cleared := [], ctrView := x.ctr,
    tick := { x.tick with
      applied := x.tick.allowance, quiet := if x.tick.loud then 0 else x.tick.quiet + 1, loud := false,
      holdTicks := if x.tick.state == .holdover then x.tick.holdTicks + 1 else x.tick.holdTicks },
    ports := Map.mapVal x.ports fun _ q => x.refill q }
  let x := if x.now.toNat % 256 = 0 then { x with window := [], ended := some x.window } else x
  ({ x with usable := x.usableNow } : Die).freeReturned.countThrottle.recap.countXoff

/-- A boundary of a Q die. -/
def State.dieBoundary (s : State) (d : DieId) : State :=
  let returning := (s.die d).tab.segs.any fun e => e.2.returning
  let s := (s.modDie d Die.advance).moveParent d
  let s := if returning then s.planPower else s
  let s := s.modDie d fun x => x.modTick fun t => if t.master then { t with allowance := s.markerAllowance d } else t
  let ports := (s.die d).ports.map (·.1)
  let s := ports.foldl (fun (t : State) p => t.beginFrame d p) s
  let s := (s.xoffWithheld d).grant d 128
  (((s.resumeHeld d).dropUnassigned d).settleAborts d |>.admitMail d).modDie d fun x => (x.fillLoop 256).noteIdle

/-- A boundary of the always-on block (R49, R410, R435, R478, R594, R598, R618, R626). -/
def State.fc4Boundary (s : State) : State :=
  let ns := s.ns
  let p := s.pow
  let r := p.rampNext.getD p.ramp
  let now := s.boot.now + 1
  let credit := match ({ p with ramp := r } : Power).limit with
    | some l => min (p.credit + l * ns) (max (l * 1000000) 90000000)
    | none => 90000000
  let ident := match s.boot.identifyNext with
    | some (t, on) => if reached now t then (on, none) else (s.boot.identify, some (t, on))
    | none => (s.boot.identify, none)
  let freed := match s.tok.release with | some t => reached now t | none => false
  let s := { s with
    boot := { s.boot with now := now, identify := ident.1, identifyNext := ident.2 },
    pow := { p with allowPrev := p.ramp.allowance, ramp := r, rampNext := none, credit := credit },
    tok := { s.tok with
      holder := if freed then none else s.tok.holder, release := if freed then none else s.tok.release },
    mbx := { s.mbx with ctrView := s.mbx.ctr } }
  ([0, 1, 2, 3].foldl (fun (t : State) c => t.deliver c (ns / 64)) s).tickFpsm

/-- TICK_BOUNDARY (R49 to R61, R83, R84, R227, R594): of die `node`, or of the always-on block for 4. -/
def execTickBoundary (node : Fin 5) (s : State) : Host.Outcome State Fault Refusal :=
  let s := s.fresh
  done (if h : node.val < 4 then (if (s.die ⟨node.val, h⟩).on then s.dieBoundary ⟨node.val, h⟩ else s) else s.fc4Boundary)

/-! ### XON -/

/-- `flow.quota_short` of one port: once when the shortfall begins; none while the partition is REOPENING or the share is zero (R238,
R354). -/
def State.checkQuota (s : State) (d : DieId) (part vc p : Nat) : State :=
  let x := s.die d
  let k := 128 * p + 8 * part + vc
  let q := x.view.part part
  let n := (x.view.segsHeld part).length * q.share vc * 256
  let short := q.share vc ≠ 0 && x.quotaShortAt p part vc
  if short && (q.state == .reopening || q.state == .closed) then s
  else if short then
    if Map.lookD x.quotaShort k false then s
    else (s.modDie d fun x => { x with quotaShort := Map.put x.quotaShort k true }).raiseDie 0x0980 d (BitVec.ofNat 8 p)
      (BitVec.ofNat 8 part) (BitVec.ofNat 8 vc) 0 (le 4 n ++ le 4 (x.skid p + 387))
  else s.modDie d fun x => { x with quotaShort := Map.rem x.quotaShort k }

/-- XON_GRANT (R231, R235, R238, R253, R549, R635). -/
def execXonGrant (d : DieId) (part : BitVec 4) (vc : BitVec 3) (s : State) : Host.Outcome State Fault Refusal :=
  let s := s.fresh
  let x := s.die d
  done (if x.on then
      (x.servicePorts.foldl (fun (t : State) p => t.checkQuota d part.toNat vc.toNat p) s).grant d (8 * part.toNat + vc.toNat)
    else s)

/-- XON_IDLE_REVOKE (R236): of a partition and virtual channel; the pool keeps its XON (DESIGN CHOICE, log entry 131). -/
def execXonIdleRevoke (d : DieId) (p : PortId) (part : BitVec 4) (vc : BitVec 3) (s : State) : Host.Outcome State Fault Refusal :=
  let s := s.fresh
  let x := s.die d
  let k := 8 * part.toNat + vc.toNat
  let q := x.port p.val
  let idle := match Map.look q.lastRx k with | some t => !within x.now t 16 | none => false
  done (if x.on && q.holdsXon k && idle then s.sendXoff d p.val k else s)

/-! ### Throttle -/

/-- Throttle is due on a queue of a leaf die (R251, R640): `some true` where the backstop of ECHO mode engages it. -/
def State.throttleDue (s : State) (d : DieId) (port part vc : Nat) : Option Bool :=
  let x := s.die d
  let m := (x.view.congOf part vc).mode
  let above (b : Bool) : Bool := decide (x.throttleAt port part vc b < x.queueBytes port part vc)
  if !s.isLeaf then none
  else if bit m 0 then (if above false then some false else none)
  else if m = 2 then (if above true then some true else none)
  else none

/-- THROTTLE_ENGAGE (R251 to R253, R640). -/
def execThrottleEngage (d : DieId) (p : PortId) (part : BitVec 4) (vc : BitVec 3) (s : State) :
    Host.Outcome State Fault Refusal :=
  let s := s.fresh
  let x := s.die d
  let k := queueKey p.val part.toNat vc.toNat
  done (if !x.on || (Map.look x.throttled k).isSome then s
    else match s.throttleDue d p.val part.toNat vc.toNat with
      | some b =>
        (s.modDie d fun x =>
          ({ (x.count (cPartVc 10 1 part.toNat vc.toNat)) with
             throttled := Map.put x.throttled k b, window := Map.upd x.window k 0 fun n => n ||| 2 }).recap).xoffWithheld d
      | none => s)

/-- THROTTLE_END (R253, R254). -/
def execThrottleEnd (d : DieId) (p : PortId) (part : BitVec 4) (vc : BitVec 3) (s : State) : Host.Outcome State Fault Refusal :=
  let s := s.fresh
  let x := s.die d
  let k := queueKey p.val part.toNat vc.toNat
  done (match Map.look x.throttled k with
    | some b =>
      if x.on && x.throttleOver p.val part.toNat vc.toNat b then
        s.modDie d fun x => ({ x with throttled := Map.rem x.throttled k }).recap
      else s
    | none => s)

/-- A window of 256 ticks that has ended: a queue's run of windows with a mark or throttle goes on or ends (R255). -/
def Die.nextRuns (x : Die) (window : Map Nat) : Map (Nat × Bool) :=
  Map.mapVal window fun k n =>
    let r := Map.lookD x.runs k (0, false)
    (r.1 + 1, r.2 || decide (2 ≤ n))

/-- OVERSUB_WINDOW_END (R255): the event comes with the 16th window of a run. -/
def execOversubWindowEnd (d : DieId) (s : State) : Host.Outcome State Fault Refusal :=
  let s := s.fresh
  let x := s.die d
  done (match x.ended with
    | some w =>
      if !x.on then s
      else
      let runs := x.nextRuns w
      let s := s.modDie d fun x => { x with ended := none, runs := runs }
      (runs.filter fun e => e.2.1 == 16).foldl (fun (t : State) e =>
        t.raiseDie 0x0982 d (BitVec.ofNat 8 (e.1 / 128)) (BitVec.ofNat 8 (e.1 % 128 / 8)) (BitVec.ofNat 8 (e.1 % 8))
          (if e.2.2 then 2 else 1) (le 4 16)) s
    | none => s)

/-! ### Other timers of a die -/

/-- LEASE_EXPIRY (R85, R203, R204): from the tick of `LEASE_END` the circuit's slots are not granted (`Tables.slotsOf`) and its
packets are refused (`State.routeCircuit`); nothing else changes until `circ.release`. -/
def execLeaseExpiry (_d : DieId) (_circuit : BitVec 12) (s : State) : Host.Outcome State Fault Refusal := done s.fresh

/-- GAP_TIMEOUT (R196). -/
def execGapTimeout (d : DieId) (part : BitVec 4) (src dst : BitVec 11) (s : State) : Host.Outcome State Fault Refusal :=
  let k := flowKey part src dst
  done (s.fresh.modDie d fun x =>
    match (x.spray k).timer with
    | some t => if x.on && !within x.now t 16 then x.declareGap k 1 else x
    | none => x)

/-- DRAINED_ENTRY (R214). -/
def execDrainedEntry (d : DieId) (part : BitVec 4) (vc : BitVec 3) (s : State) : Host.Outcome State Fault Refusal :=
  let k := 8 * part.toNat + vc.toNat
  done (s.fresh.modDie d fun x =>
    match Map.look x.idleFrom k with
    | some t =>
      if x.on && reached x.now (t + 64) && bit (x.view.part part.toNat).quiesced vc.toNat && !x.holdsKey k then
        { x with drained := Map.put x.drained k true }
      else x
    | none => x)

end Sys2Proof.Machine
end

