-- ==== Sys2Proof/Machine/CaddyCmds.lean ====
section
/-! DEFINITION. Cable caddies: insertion, removal and temperature (spec/01 R28; spec/04 R158 to R168, Tables 04-8 and 04-9;
spec/14 R515; spec/17 R604, R610, R611). -/

namespace Sys2Proof.Machine

/-- Apply a change of the tray to every port of a bay. -/
def State.bayEach (s : State) (c : BayId) (f : State → Nat → State) : State := (bayPorts c).foldl f s

/-- Domain A of a bay is powered. -/
def State.domainA (s : State) (c : BayId) : Bool := s.pow.domains.getLsbD (112 + 2 * c.val)

/-- Raise an event of a bay. -/
def State.raiseBay (s : State) (op : Nat) (c : BayId) (cause : Byte) (more : List Byte) : State :=
  s.raiseTray op cause (BitVec.ofNat 8 c.val :: more)

/-- CADDY_PRESENCE (R161 step 1): domain A is powered. -/
def execCaddyPresence (c : BayId) (s : State) : Host.Outcome State Fault Refusal :=
  let s := s.fresh
  done (if (s.bay c).state == .empty then
      (s.modBay c fun _ => { ({} : Bay) with state := .domainA }).planPower
    else s)

/-- `MAGIC`, `FORMAT` and `ECRC` of an EEPROM are correct (Table 04-8). -/
def eepromOk (e : List Byte) : Bool :=
  e.length == 2048 && e.take 4 == [0x53, 0x48, 0x43, 0x44] && leNat ((e.drop 4).take 2) == 1 &&
    leNat ((e.drop 2044).take 4) == crc32c (e.take 2044)

/-- R28: the bay takes a caddy of this type. With no identity in force there is no role to check against. -/
def State.typeFits (s : State) (c : BayId) (kind : Nat) : Bool :=
  if s.isLeaf then (if c.val % 2 = 0 then kind == 1 || kind == 2 else kind == 3)
  else if s.isSpine then kind == 3
  else 1 ≤ kind && kind ≤ 3

/-- Step 3 of Table 04-9 (R611). -/
def Power.caddyCool (p : Power) : Bool := p.coolOk && decide (p.grade.toNat ≤ 1) && decide (p.last.rail ≤ 500)

/-- `REFUSE_CAUSE` of a caddy (R162, Table 12-3): 0 when the tray takes it. -/
def State.refuses (s : State) (c : BayId) (e : List Byte) : BitVec 8 :=
  let kind := (e.getD 6 0).toNat
  if !eepromOk e then 1
  else if !s.typeFits c kind then 2
  else if kind ≠ 1 && !s.pow.caddyCool then 3
  else 0

/-- CADDY_ID_READ (R161 steps 2 to 4, R162): the EEPROM is read in frames of at most 64 B, which take their turn on the FPSM (R498, R512,
R514). -/
def execCaddyIdRead (c : BayId) (eeprom : List Byte) (s : State) : Host.Outcome State Fault Refusal :=
  let s := s.fresh
  let b := s.bay c
  done (if b.state != .domainA || b.lever || !s.domainA c then s
    else
      let s := (List.range 32).foldl (fun (t : State) i =>
        t.askCaddy { bay := c, addr := BitVec.ofNat 16 (64 * i), len := 64 }) s
      let cause := s.refuses c eeprom
      let s := s.modBay c fun b =>
        { b with state := if cause = 0 then .active else .refused, cause := cause, eeprom := eeprom, taken := cause = 0 }
      let s := if cause = 1 then s else s.raiseBay 0x0390 c 0 [eeprom.getD 6 0]
      (if cause = 0 then s else s.raiseBay 0x0391 c cause []).planPower)

/-- R28 when an identity comes into force: a caddy of a type that the role does not permit in its bay is refused (R162). -/
def State.recheckBay (s : State) (c : BayId) : State :=
  let b := s.bay c
  if b.taken && !s.typeFits c b.kind then
    (s.modBay c fun b => { b with state := if b.state == .active then .refused else b.state, cause := 2, taken := false }).raiseBay
      0x0391 c 2 []
  else s

/-- CADDY_DOMAIN_B_GOOD (R161 step 5). -/
def execCaddyDomainBGood (c : BayId) (s : State) : Host.Outcome State Fault Refusal :=
  let s := s.fresh
  done (if (s.bay c).taken && s.pow.domains.getLsbD (113 + 2 * c.val) then
      (s.modBay c fun b => { b with domB := true }).planPower
    else s)

/-- Mark all 32 ports of a bay as leaving, or take the mark away (R163, R167). -/
def State.markBay (s : State) (c : BayId) (m : Bool) : State :=
  s.modDie (bayDie c) fun x => (bayPorts c).foldl (fun (x : Die) p => x.modPort p fun q => { q with leaving := m }) x

/-- CADDY_LEVER_OPEN (R163): the ports of the caddy are marked as leaving. -/
def execCaddyLeverOpen (c : BayId) (s : State) : Host.Outcome State Fault Refusal :=
  let s := s.fresh
  let b := s.bay c
  done (if b.state == .empty || b.lever then s
    else ((s.modBay c fun b => { b with state := .leaving, lever := true }).markBay c true).raiseBay 0x0392 c 0 [])

/-- CADDY_LEAVING_DONE (R164): each leaving port that holds nothing to send is declared failed, after 10 ms every one; domain B then
goes off, and the bay shows ready-to-remove once it is off. -/
def execCaddyLeavingDone (c : BayId) (timeUp : Bool) (s : State) : Host.Outcome State Fault Refusal :=
  let s := s.fresh
  let d := bayDie c
  done (if (s.bay c).state != .leaving then s
    else
      let s := s.bayEach c fun t p => if timeUp || (t.die d).emptied p then t.failLink d p 5 else t
      if (bayPorts c).any fun p => ((s.die d).port p).up then s
      else
        let s := (s.modBay c fun b => { b with taken := false }).planPower
        if s.pow.domains.getLsbD (113 + 2 * c.val) then s else s.modBay c Bay.released)

/-- CADDY_WITHDRAWN (R166): without the lever sequence the ports fail, and `caddy.removed` is raised. -/
def execCaddyWithdrawn (c : BayId) (s : State) : Host.Outcome State Fault Refusal :=
  let s := s.fresh
  let d := bayDie c
  let b := s.bay c
  done (if b.state == .empty then s
    else
      let early := b.state != .readyToRemove
      let s := if early then s.bayEach c fun t p => t.failLink d p 5 else s
      let s := ((s.modBay c fun _ => {}).markBay c false).planPower
      if early then s.raiseBay 0x0393 c 0 [] else s)

/-- CADDY_LEVER_CLOSE (R167): insertion begins again at step 2. Domain B stays as it is until the caddy has been checked again (DESIGN
CHOICE, log entry 119). -/
def execCaddyLeverClose (c : BayId) (s : State) : Host.Outcome State Fault Refusal :=
  let s := s.fresh
  let b := s.bay c
  done (if b.lever && b.state != .empty then (s.modBay c fun b => { b.again with lever := false }).markBay c false else s)

/-- Count of a caddy condition after one more sample: it starts at 3 samples, and holds until the caddy has been at its clear
level for 10 s, 1,000 samples (R604, R609, R610). -/
def holdCond (met : Bool) (n cool : Nat) : Nat := if 3 ≤ n then (if 1000 ≤ cool then 0 else 3) else bump met n

/-- CADDY_TEMP_SAMPLE (R158, R515, R604, R610): one FPSM frame reads the sample, and takes its turn on the lines (R512);
every caddy whose EEPROM has been read and is sound is compared; at `TEMP_CRIT` domain B goes off and the bay's ports fail. -/
def execCaddyTempSample (c : BayId) (temp : BitVec 16) (status : Byte) (s : State) : Host.Outcome State Fault Refusal :=
  let s := s.fresh
  let d := bayDie c
  let b := s.bay c
  done (if b.state == .empty || !s.domainA c then s
    else
      let s := s.askCaddy { bay := c, addr := 0x1000, len := 3 }
      if bit status 7 then s
      else if b.eeprom.isEmpty || b.cause = 1 then s.modBay c fun b => { b with temp := temp }
      else
        let warn : Int := 10 * (b.eeprom.getD 48 255).toNat
        let crit : Int := 10 * (b.eeprom.getD 49 255).toNat
        let t := temp.toInt
        let cool := if t ≤ warn - 50 then b.cool + 1 else 0
        let s := s.modBay c fun b =>
          { b with temp := temp, cool := cool, warm := holdCond (decide (warn ≤ t)) b.warm cool,
                   hot := holdCond (decide (crit ≤ t)) b.hot cool }
        if (s.bay c).critical && !b.critical then (s.bayEach c fun u p => u.failLink d p 1).planPower
        else if b.critical && !(s.bay c).critical then s.planPower
        else s)

end Sys2Proof.Machine
end

