-- ==== Sys2Proof/Machine/FuseCmds.lean ====
section
/-! DEFINITION. The fuse commands, the end of a fuse use, and the checks of the audit log (spec/10 R369 to R386, spec/13
Table 13-5, R488). -/

namespace Sys2Proof.Machine

/-- FUSE_READ (R369, Table 13-5). -/
def execFuseRead (f : Frame) (s : State) : Host.Outcome State Fault Refusal :=
  done (s.serveRead { op := 0x0D01, change := false, len := 0 } f fun t => (.ok, le 512 t.fuse.bits.toNat))

/-- Serve a fuse command that may program bits: BUSY while another runs (R371), and a command that needs no bit answers OK
(R488). -/
def State.serveFuse (s : State) (op len : Nat) (unsignedOk : Bool) (f : Frame) (bad : Bool)
    (uses : State → Except Status (List FuseUse)) (pend : Option (Fin 4 × BitVec 384) := none) : State :=
  s.serve { op := op, change := true, len := len, unsignedOk := unsignedOk } f fun t =>
    if bad then (t, .now .badField [])
    else if t.fuse.op.isSome then (t, .now .busy [])
    else match uses t with
      | .error st => (t, .now st [])
      | .ok us =>
        let r := t.startFuse f us pend none
        (r.1, .now r.2 [])

/-- The bits of a key program of slot k: the 1 bits of the hash, and `KEY_PROG`. -/
def keyMask (k : Nat) (hash : BitVec 384) : BitVec 4096 :=
  (hash.setWidth 4096 <<< (64 + 392 * k)) ||| (1#4096 <<< (448 + 392 * k))

/-- The use of a key program. -/
def keyUse (k : Nat) (hash : BitVec 384) : FuseUse :=
  { setting := 1, bit := 64 + 392 * k, mask := keyMask k hash, detail := le 1 k }

/-- FUSE_KEY_PROGRAM (R371 to R373, R378): unsigned over MSP while every slot is EMPTY. -/
def execFuseKeyProgram (f : Frame) (slot : Byte) (hash : BitVec 384) (s : State) : Host.Outcome State Fault Refusal :=
  let msp := f.chan == .mspA || f.chan == .mspB
  let pend : Option (Fin 4 × BitVec 384) := if h : slot.toNat < 4 then some (⟨slot.toNat, h⟩, hash) else none
  done (s.serveFuse 0x0D02 52 (s.noKeys && msp) f (3 < slot.toNat) (fun t =>
    if t.keyState slot.toNat ≠ 0 then .error .slotUsed else .ok [keyUse slot.toNat hash]) pend)

/-- FUSE_KEY_REVOKE (R372, R374, R375). -/
def execFuseKeyRevoke (f : Frame) (slot : Byte) (s : State) : Host.Outcome State Fault Refusal :=
  let k := slot.toNat
  done (s.serveFuse 0x0D03 4 false f (3 < k || s.keyState k ≠ 1) fun t =>
    if [0, 1, 2, 3].any fun j => j != k && t.keyState j == 1 then .ok [oneBit 2 (449 + 392 * k) (le 1 k)]
    else .error .lastKey)

/-- FUSE_ROLLBACK_ADVANCE (R378, R379): one bit a step. -/
def execFuseRollbackAdvance (f : Frame) (floor : Byte) (s : State) : Host.Outcome State Fault Refusal :=
  let n := floor.toNat
  done (s.serveFuse 0x0D04 4 false f (n = 0 || 128 < n) fun t =>
    if n ≤ t.floor then .ok []
    else if t.fw.runSecurity.toNat < n then .error .rollbackAhead
    else
      let free := ((List.range 128).map (1632 + ·)).filter fun i => !t.fuseBit i
      .ok ((List.range (n - t.floor)).map fun i => oneBit 3 (free.getD i 0) (le 1 (t.floor + i + 1))))

/-- Set one `GRANT` or `DENY` bit (R376, R382). -/
def State.servePrivilege (s : State) (f : Frame) (cls bit : Byte) (deny : Bool) : State :=
  let b := (if cls = 0 then 1784 else 1800) + (if deny then 8 else 0) + bit.toNat
  s.serveFuse 0x0D05 4 false f (1 < cls.toNat || 4 < bit.toNat) fun t =>
    if t.fuseBit b then .ok [] else .ok [oneBit 7 b (le 1 bit.toNat)]

/-- FUSE_PRIVILEGE_GRANT (R376). -/
def execFusePrivilegeGrant (f : Frame) (cls bit : Byte) (s : State) : Host.Outcome State Fault Refusal :=
  done (s.servePrivilege f cls bit false)

/-- FUSE_PRIVILEGE_DENY (R376). -/
def execFusePrivilegeDeny (f : Frame) (cls bit : Byte) (s : State) : Host.Outcome State Fault Refusal :=
  done (s.servePrivilege f cls bit true)

/-- FUSE_DEBUG_UNLOCK (R381, R382). -/
def execFuseDebugUnlock (f : Frame) (s : State) : Host.Outcome State Fault Refusal :=
  done (s.serveFuse 0x0D06 4 false f (!s.debugLocked) fun t =>
    match t.fuseNext 1780 3 with
    | some b => .ok [oneBit 5 b []]
    | none => .error .fuseExhausted)

/-- FUSE_DEBUG_LOCK (R381). -/
def execFuseDebugLock (f : Frame) (s : State) : Host.Outcome State Fault Refusal :=
  done (s.serveFuse 0x0D06 4 false f s.debugLocked fun t =>
    match t.fuseNext 1776 4 with
    | some b => .ok [oneBit 6 b []]
    | none => .error .fuseExhausted)

/-- FUSE_AUDIT (R386, Table 13-5). -/
def execFuseAudit (f : Frame) (first count : BitVec 16) (s : State) : Host.Outcome State Fault Refusal :=
  done (s.serveRead { op := 0x0D07, change := false, len := 4 } f fun t =>
    if count = 0 || 63 < count.toNat then (.badField, [])
    else
      let recs := (t.fuse.log.drop first.toNat).take count.toNat
      (.ok, le 2 t.fuse.log.length ++ [0, 0] ++ recs.flatMap AuditRec.bytes))

/-- A slot is revoked: its cached key is dropped, and a holder of the token through it loses the token (R375, R403). -/
def State.dropSlot (s : State) (k : Nat) : State :=
  let held := match s.tok.holder with | some h => h.val == k | none => false
  { s with tok := { s.tok with keys := Map.rem s.tok.keys k, holder := if held then none else s.tok.holder } }

/-- What follows the COMPLETE record of a use: a revocation takes effect, an identity step is followed by its record (R375,
R380). -/
def State.useDone (s : State) (u : FuseUse) (ident : Option IdRec) : State :=
  if u.setting = 2 then s.dropSlot ((u.bit - 449) / 392)
  else if u.setting = 4 then
    match ident with
    | some r => ({ s with boot := { s.boot with records := Map.put s.boot.records r.index r } }).flashOp [r.record]
    | none => s
  else s

/-- Every bit of a use reads back as it was to be programmed. -/
def State.readsBack (s : State) (u : FuseUse) : Bool :=
  if u.setting = 1 then s.fuse.bits.extractLsb' u.bit 385 == u.mask.extractLsb' u.bit 385
  else s.fuse.bits &&& u.mask == u.mask

/-- Raise `fuse.done` (R371). -/
def State.raiseFuseDone (s : State) (failed : Bool) (u : FuseUse) (seq : Nat) : State :=
  s.raiseTray 0x0D80 (if failed then 1 else 0) ([u.setting, 0] ++ le 2 u.bit ++ le 4 seq)

/-- FUSE_USE_COMPLETE (R371, R375, R380, R488): the use under way has been programmed and read back. Where read-back fails,
which of its bits were programmed is open. -/
def execFuseUseComplete (readBackOk : Bool) (s : State) : Host.Outcome State Fault Refusal :=
  let s := s.fresh
  done (match s.fuse.op with
    | none => s
    | some o =>
      match o.uses with
      | [] => { s with fuse := { s.fuse with op := none } }
      | u :: rest =>
        let got := if readBackOk then u.mask else u.mask &&& Config.fuseStuck s.free
        let s := { s with fuse := { s.fuse with bits := s.fuse.bits ||| got }, free := s.free + 1 }
        if readBackOk && s.readsBack u then
          let seq := s.fuse.log.length
          let s := (s.audit 2 u o.cred o.epoch).useDone u o.ident
          match rest with
          | [] => ({ s with fuse := { s.fuse with op := none } }).raiseFuseDone false u seq
          | v :: _ => { s.audit 1 v o.cred o.epoch with fuse := { (s.audit 1 v o.cred o.epoch).fuse with
              op := some { o with uses := rest } } }
        else ({ s with fuse := { s.fuse with op := none } }).raiseFuseDone true u (s.fuse.log.length - 1))

/-! ### The audit log at boot (R385, R386) -/

/-- An INTENT record with no later COMPLETE or CANCELLED record of its use. -/
def unsettled (log : List AuditRec) : List AuditRec :=
  log.filter fun r => r.kind == 1 && !log.any fun q => decide (r.seq.toNat < q.seq.toNat) && q.kind != 1 &&
    q.setting == r.setting && q.bit == r.bit

/-- Raise `fuse.audit_mismatch`. -/
def State.raiseMismatch (s : State) (seq : BitVec 32) : State := s.raiseTray 0x0D82 0 (le 4 seq.toNat)

/-- Settle one INTENT record (R385): a key program that is half done is completed from the pending record of the key store. -/
def State.settleIntent (s : State) (r : AuditRec) : State :=
  let b := r.bit.toNat
  let note (s : State) (kind : BitVec 8) : State :=
    s.audit kind { setting := r.setting, bit := b, mask := 0, detail := r.detail } r.cred r.epoch
  if r.setting ≠ 1 then note s (if s.fuseBit b then 2 else 3)
  else if s.fuseBit (b + 384) then note s 2
  else if s.fuse.bits.extractLsb' b 384 = 0 then note s 3
  else
    match s.fuse.pending with
    | some (k, h, true) =>
      if 64 + 392 * k.val = b then
        note { s with fuse := { s.fuse with bits := s.fuse.bits ||| keyMask k.val h } } 2
      else (note s 3).raiseMismatch r.seq
    | _ => (note s 3).raiseMismatch r.seq

/-- The first record whose `CHAIN` or `RCRC` fails. -/
def badRecord : Option AuditRec → List AuditRec → Option AuditRec
  | _, [] => none
  | prev, r :: rest =>
    let chain := match prev with | some p => chainAfter p | none => 0
    if r.chain = chain ∧ r.crc = BitVec.ofNat 32 (crc32c r.body) then badRecord (some r) rest else some r

/-- COMPLETE records of a setting and, for a slot, of its fuse bit. -/
def completes (log : List AuditRec) (setting : BitVec 8) (bit : Option Nat) : Nat :=
  (log.filter fun r => r.kind == 2 && r.setting == setting &&
    (match bit with | some b => r.bit.toNat == b | none => true)).length

/-- The count of COMPLETE records of every fuse field equals its 1 bits, the factory bits apart (R386). -/
def State.countsMatch (s : State) : Bool :=
  let log := s.fuse.log
  ((List.range 4).all fun k =>
    completes log 1 (some (64 + 392 * k)) == s.fuseOnes (448 + 392 * k) 1 &&
      completes log 2 (some (449 + 392 * k)) == s.fuseOnes (449 + 392 * k) 1) &&
    completes log 3 none == s.floor && completes log 4 none == s.idIndex && completes log 5 none == s.fuseOnes 1780 3 &&
    completes log 6 none + 1 == s.fuseOnes 1776 4 && completes log 7 none + 5 == s.fuseOnes 1784 32

/-- Check the audit log (R386). -/
def State.checkAudit (s : State) : State :=
  match badRecord none s.fuse.log with
  | some r => s.raiseMismatch r.seq
  | none =>
    if s.countsMatch then s
    else ({ s with free := s.free + 1 }).raiseMismatch (Config.mismatchSeq s.free)

end Sys2Proof.Machine
end

