-- ==== Sys2Proof/Machine/Managers.lean ====
section
/-! DEFINITION. The manager key and token commands (spec/11 R402 to R411, Tables 11-5 and 11-6). -/

namespace Sys2Proof.Machine

/-- The 16 B that `mgr.claim` and `mgr.beat` return (Table 11-6). -/
def State.tokenBlock (s : State) : List Byte :=
  [match s.holder with | some h => BitVec.ofNat 8 h.val | none => 0xFF, 0, 0, 0] ++ le 4 s.tok.epoch.toNat ++
    le 8 s.tok.lapse.toNat

/-- The next nonce, a free value. -/
def State.drawNonce (s : State) : State × BitVec 128 := ({ s with free := s.free + 1 }, Config.nonce s.free)

/-- MGR_NONCE (R402). -/
def execMgrNonce (f : Frame) (s : State) : Host.Outcome State Fault Refusal :=
  done (s.serve { op := 0x0230, change := false, len := 0, unsignedOk := true } f fun t =>
    let (t, n) := t.drawNonce
    ({ t with tok := { t.tok with nonces := Map.put t.tok.nonces (chanNum f.chan) n } }, .now .ok (le 16 n.toNat)))

/-- What R403 finds wrong with a key presented under the slot that `CRED_SLOT` names. -/
def State.keyProblem (s : State) (f : Frame) (nonce : BitVec 128) (key : PubKey) : Option Status :=
  if f.cred = 0xFF || s.noKeys then some .noCredential
  else if f.cred.toNat > 3 || s.keyState f.cred.toNat = 0 then some .keyUnknown
  else if s.keyState f.cred.toNat = 2 then some .slotRevoked
  else if Map.look s.tok.nonces (chanNum f.chan) ≠ some nonce then some .replayed
  else if keyHashOf key ≠ s.keyHash f.cred.toNat then some .keyUnknown
  else if !verifies f key then some .badSignature
  else none

/-- The channel's nonce is spent by the next `mgr.key` on it, whatever the outcome (R402). -/
def State.spendNonce (s : State) (f : Frame) : State :=
  if s.hears f && f.magicOk && f.crcOk && (s.repeatOf f).isNone then
    { s with tok := { s.tok with nonces := Map.rem s.tok.nonces (chanNum f.chan) } }
  else s

/-- MGR_KEY (R382, R402, R403, R538). -/
def execMgrKey (f : Frame) (nonce : BitVec 128) (key : PubKey) (s : State) : Host.Outcome State Fault Refusal :=
  done ((s.spendNonce f).serve { op := 0x0231, change := true, len := 116, noToken := true, ownAuth := true } f fun t =>
    match s.keyProblem f nonce key with
    | some st => (t, .now st [])
    | none =>
      let k := f.cred.toNat
      let u := { t with tok := { t.tok with keys := Map.put t.tok.keys k key, seqs := Map.put t.tok.seqs k f.cmdSeq,
                                            store := Map.put t.tok.store k key } }
      let u := if Map.look t.tok.store k = some key then u else u.flashOp [u.keyRecord]
      (if u.debugLocked then u else u.raiseTray 0x0D81 0 [], .now .ok []))

/-- MGR_CLAIM (R407, R408): a claim that passes is held undecided, and its slot stays occupied. Claims of an earlier tick have won
the token from this one, decided or not. -/
def execMgrClaim (f : Frame) (epoch : BitVec 32) (s : State) : Host.Outcome State Fault Refusal :=
  done (s.serve { op := 0x0232, change := true, len := 8, noToken := true } f fun t =>
    if t.holder.isSome || t.tok.claims.any (fun c => c.tick != t.boot.now) then (t, .now .tokenHeld [])
    else if epoch.toNat ≤ t.tok.epoch.toNat then (t, .now .staleToken [])
    else
      let c : Claim := { f := f, key := f.cred.toNat, epoch := epoch, tick := t.boot.now }
      let r : SlotReq := { op := 0x0232, tag := f.tag, port := f.port.val, origin := f.origin }
      ({ t with tok := { t.tok with claims := t.tok.claims ++ [c] },
                mbx := { t.mbx with slots := Map.put t.mbx.slots (slotKey f.chan f.slot) r } }, .later))

/-- MGR_BEAT (R405): the lapse tick moves to three heartbeat periods after the tick of acceptance. -/
def execMgrBeat (f : Frame) (s : State) : Host.Outcome State Fault Refusal :=
  done (s.serve { op := 0x0233, change := true, len := 0 } f fun t =>
    let t := { t with tok := { t.tok with lapse := t.boot.now + BitVec.ofNat 48 (3 * t.hb), lastBeat := t.boot.now } }
    (t, .now .ok t.tokenBlock))

/-- MGR_RELEASE (R410): free from the next boundary; the epoch stays. -/
def execMgrRelease (f : Frame) (s : State) : Host.Outcome State Fault Refusal :=
  done (s.serve { op := 0x0234, change := true, len := 0 } f fun t =>
    ({ t with tok := { t.tok with release := some (t.boot.now + 1) } }, .now .ok []))

/-- MGR_STATUS (R405). -/
def execMgrStatus (f : Frame) (s : State) : Host.Outcome State Fault Refusal :=
  done (s.serveRead { op := 0x0235, change := false, len := 0 } f fun t =>
    (.ok, t.tokenBlock ++ le 8 t.tok.lastBeat.toNat))

end Sys2Proof.Machine
end

