-- ==== Sys2Proof/Machine/BringUp.lean ====
section
/-! DEFINITION. Bring-up after an image runs, service levels, the loss of a die or a core, the FC4 reset, and the manager token
with time (spec/15 R542 to R555, spec/16 R572 to R577, spec/11 R405 to R409, R416, R546). -/

namespace Sys2Proof.Machine

/-! ### Stages -/

/-- The stage after the die cores are powered: MANAGER_WAIT, or PRE_WARM when the token is held already (Table 15-1, R546). -/
def State.enterWait (s : State) : State :=
  s.setStage (if s.boot.ident.isSome && s.holder.isSome then .preWarm else .managerWait)

/-- Discard stored keys that do not match `KEY_HASH` of their slot (R542). -/
def State.checkStore (s : State) : State :=
  { s with tok := { s.tok with store := Map.keep s.tok.store fun k p => keyHashOf p == s.keyHash k } }

/-- The identity in force: that of the dies while one is powered, otherwise the record that `ID_REWRITE` selects (R542, R544);
a LEAF tray has tick priority 0 (R434). -/
def State.chooseIdentity (s : State) : State :=
  let kept := allDieIds.any fun d => (s.die d).core != .off
  let id := if kept then s.boot.ident else Map.look s.boot.records s.idIndex
  let s := { s with boot := { s.boot with ident := id } }
  if s.isLeaf then { s with elect := { s.elect with priority := 0 } } else s

/-- FUSE_CHECK (R28, R385, R386, R434, R542 to R544, R555). -/
def execFuseCheck (s : State) : Host.Outcome State Fault Refusal :=
  let s := s.fresh
  done (if s.boot.stage != .fuseCheck || !s.boot.checkDue then s
    else
      let s := (unsettled s.fuse.log).foldl (fun (t : State) r => t.settleIntent r) s
      let s := s.checkAudit.checkStore.chooseIdentity
      let s := allBays.foldl State.recheckBay s
      let s := { s with boot := { s.boot with checkDue := false } }
      let up := allDieIds.filter fun d => (s.die d).on
      if s.boot.ident.isNone then s.enterWait
      else if up.isEmpty then s.planPower
      else if up.all fun d => (s.die d).full then s.setStage .full
      else s.enterWait)

/-- Raise `link.degrade` for every cabled port that is ACTIVE below x4 (R553). -/
def State.degradeCabled (s : State) : State :=
  let one (s : State) (d : DieId) : State :=
    (List.range 64).foldl (fun (t : State) p =>
      let q := (t.die d).port p
      if (t.cabled d).getLsbD p && q.state == .active && q.width != 4 then t.raiseDegrade d p else t) s
  allDieIds.foldl one s

/-- FULL_SERVICE_ENTRY (R552 to R554): the pre-warm hold of every die ends. A die that was powered again while the tray is in
full service enters it when it is LOCKED. -/
def execFullServiceEntry (s : State) : Host.Outcome State Fault Refusal :=
  let s := s.fresh
  done (if s.boot.stage == .preWarm && s.fullCond = 15 then
      ((s.onDies fun x => { x with full := true }).setStage .full).degradeCabled
    else if s.boot.stage == .full then
      s.onDies fun x => if x.tick.state == .locked then { x with full := true } else x
    else s)

/-! ### Dies and cores -/

/-- A die whose core domain has become good: reset tables and zeroed counters, or after retention what it kept, with the
always-on count (R545, R588, R616, R666). -/
def Die.powerUp (x : Die) (alwaysOn : Tick) (period : BitVec 2) : Die :=
  let node : TickNode := { period := period }
  if x.core == .retention then { x with core := .on, now := alwaysOn, tick := node, full := false }
  else { core := .on, tick := node }

/-- DIE_CORE_POWER_GOOD (R542, R545, R549, R588). -/
def execDieCorePowerGood (d : DieId) (s : State) : Host.Outcome State Fault Refusal :=
  let s := s.fresh
  done (if s.pow.domains.getLsbD (28 * d.val + 27) && !(s.die d).on then
      let s := s.modDie d fun x => x.powerUp s.boot.now s.elect.period
      let ready := s.boot.stage == .fuseCheck && !s.boot.checkDue && allDieIds.all fun e => !s.wantsCore e || (s.die e).on
      let s := if !ready then s else if s.pow.state = 2 then s.setStage .preWarm else s.enterWait
      s.planPower
    else s)

/-- CORE_OFF (R596, R625, R630): a core's domain has lost power. -/
def execCoreOff (core : Fin 4) (s : State) : Host.Outcome State Fault Refusal :=
  let s := s.fresh
  let k := 128 + core.val
  done (if (s.core core.val).cond == .off then s
    else
      let s := if s.wants k then s.coreCut core.val else s.coreDown core.val 1
      ({ s with pow := { s.pow with domains := setBit s.pow.domains k false } }).dropSteps (· == k))

/-- DIE_POWER_LOST (R572). -/
def execDiePowerLost (d : DieId) (s : State) : Host.Outcome State Fault Refusal :=
  let s := s.fresh
  done (if (s.die d).on then s.dieLost d else s)

/-- The partition and virtual channel of a held packet in an event. -/
def State.raiseEcc (s : State) (d : DieId) (part vc cause : Byte) (n : Nat) : State :=
  s.raiseDie 0x0B85 d 0xFF part vc cause (le 1 n)

/-- A buffer error hits an input of a pour that waits in the packet buffer: the packet is discarded, and its stream stays incomplete (R223,
R291). -/
def State.eccWait (s : State) (d : DieId) (id : Nat) : State :=
  let x := s.die d
  match x.pours.find? fun q => q.waits.any fun w => w.id == id with
  | none => s
  | some q =>
    match q.waits.find? fun w => w.id == id with
    | none => s
    | some w =>
      (s.modDie d fun x =>
        ((x.count (cDie 3 6)).touch q.part.toNat).modPour q.key q.place q.slot fun r =>
          { r with waits := r.waits.filter (fun v => v.id != id),
                   inputs := Map.mapVal r.inputs fun k i => if k = w.pos then { i with dead := true } else i }).raiseEcc d
        (q.part.setWidth 8) (BitVec.ofNat 8 (placeVc q.place)) 0 w.seg

/-- ECC_ERROR (R223, R560, Table 16-5): the packet is discarded, the pour that uses the pot aborts with TIMEOUT, or the directory
entry is lost. -/
def execEccError (d : DieId) (site : EccSite) (s : State) : Host.Outcome State Fault Refusal :=
  let s := s.fresh
  let x := s.die d
  done (if !x.on then s
    else match site with
      | .packet id =>
        match x.held.find? fun h => h.id == id with
        | none => s.eccWait d id
        | some h =>
          (s.modDie d fun x => x.discardHeld (fun k => k.id == id) (fun _ => cDie 3 6) true).raiseEcc d
            (h.hdr.part.setWidth 8) (h.hdr.vc.setWidth 8) 0 h.seg
      | .pot n =>
        let p := x.pot n.val
        let part : Byte := match p.owner with | some o => o.1.setWidth 8 | none => 0xFF
        let s := s.raiseEcc d part 0xFF 1 n.val
        (match p.pour with | some k => s.abortPour d k 4 | none => s)
      | .entry i =>
        let e := x.tab.entry i
        if i < 262144 && e.valid then
          (s.modDie d fun x => x.clearDir (· == i)).raiseEcc d (e.part.setWidth 8) 0xFF 2 0
        else s)

/-! ### The FC4 reset -/

/-- WATCHDOG_EXPIRY (R575): the always-on block records the core and its fault code, and an FC4 reset is due. -/
def execWatchdogExpiry (core : Fin 4) (code : BitVec 32) (s : State) : Host.Outcome State Fault Refusal :=
  let s := s.fresh
  done (if s.boot.stage == .alwaysOn then s
    else { s with boot := { s.boot with faultCode := some (core, code), resetDue := some 1 } })

/-- The trace cores at an FC4 reset (R625, R631): what the FIFOs hold goes to the buffer, the sequences restart, and every core
that is powered writes RESUME and SYNC. -/
def State.restartCores (s : State) : State :=
  (List.range 4).foldl (fun (t : State) c =>
    let k := t.core c
    let t := t.deliver c k.fifo.length
    let t := t.modCore c fun k => { k with seq := 0 }
    match k.cond with
    | .off => t
    | .sleep => t.resumeCore c 2
    | .run => (t.modCore c fun k => { k with sleepMissing := true, sleepTick := t.boot.now }).resumeCore c 2) s

/-- R576: the fault that caused the reset, the endpoints that are lost, and the lost links are reported again. -/
def State.reportAgain (s : State) (fault : Option (Fin 4 × BitVec 32)) : State :=
  let v := Config.noFault s.free
  let s := match fault with
    | some (c, w) => s.raiseTray 0x0C81 (BitVec.ofNat 8 c.val) (le 4 w.toNat)
    | none => ({ s with free := s.free + 1 }).raiseTray 0x0C81 (fld v 0 8) (le 4 (fld v 8 32).toNat)
  let ports (d : DieId) : List (Nat × BitVec 4) :=
    if s.isLeaf then (s.die d).view.portPart.filter fun e => !((s.die d).port e.1).carries else []
  let s := allDieIds.foldl (fun (t : State) d =>
    (ports d).foldl (fun (u : State) e =>
      ({ u with free := u.free + 1 }).raiseLost d (Config.lostRow u.free).toNat e) t) s
  if s.isSpine then
    { s with notes := { s.notes with due := s.notes.down.foldl (fun m e => Map.put m e.1 (false, e.2)) s.notes.due } }
  else
    allDieIds.foldl (fun (t : State) d =>
      (List.range 32).foldl (fun (u : State) q =>
        if (u.die d).on && Map.lookD u.notes.lost (64 * q + u.leafIndex d) false && !((u.die d).port (32 + q)).carries then
          u.applyReach q (u.leafIndex d) false (u.die d).now
        else u) t) s

/-- R577: the lapse tick at the end of an FC4 reset. -/
def State.extendLapse (s : State) : State :=
  let t := s.boot.now + BitVec.ofNat 48 s.hb
  if s.tok.holder.isSome && !reached s.tok.lapse t then { s with tok := { s.tok with lapse := t } } else s

/-- FC4_RESET (R491, R505, R517, R527, R575 to R577, R593, R616, R625, R631). -/
def execFc4Reset (s : State) : Host.Outcome State Fault Refusal :=
  let s := s.fresh
  done (match s.boot.resetDue with
    | none => s
    | some cause =>
      let fault := s.boot.faultCode
      let s := s.clearFc4
      let s := { s with boot := { s.boot with faultCode := none } }
      let s := ((s.toBoot cause).extendLapse).restartCores
      s.reportAgain fault)

/-! ### The token -/

/-- TOKEN_LAPSE (R405): the event names the slot that held the token. -/
def execTokenLapse (s : State) : Host.Outcome State Fault Refusal :=
  let s := s.fresh
  done (match s.tok.holder with
    | none => s
    | some h =>
      if reached s.boot.now s.tok.lapse then
        ({ s with tok := { s.tok with holder := none, release := none } }).raiseTray 0x0285 0
          ([BitVec.ofNat 8 h.val, 0, 0, 0] ++ le 4 s.tok.epoch.toNat)
      else s)

/-- The better of two claims: the greater epoch, then the lower slot (R408). -/
def Claim.best (a b : Claim) : Claim :=
  if a.epoch.toNat < b.epoch.toNat || (a.epoch = b.epoch && b.key < a.key) then b else a

/-- TOKEN_CLAIM_DECIDE (R408, R409, R546): the claims of the previous tick are decided. -/
def execTokenClaimDecide (s : State) : Host.Outcome State Fault Refusal :=
  let s := s.fresh
  let old := s.tok.claims.filter fun c => c.tick != s.boot.now
  done (match old with
    | [] => s
    | c :: rest =>
      let w := rest.foldl Claim.best c
      let key : Fin 4 := ⟨w.key % 4, Nat.mod_lt _ (by decide)⟩
      let s := { s with tok := { s.tok with
        holder := some key, epoch := w.epoch, lapse := s.boot.now + BitVec.ofNat 48 (3 * s.hb), release := none,
        claims := s.tok.claims.filter fun c => c.tick == s.boot.now } }
      let s := old.foldl (fun (t : State) c => t.answer c.f 0x0232 (if c == w then .ok else .lostRace) t.tokenBlock) s
      let s := s.raiseTray 0x0284 0 ([BitVec.ofNat 8 key.val, 0, 0, 0] ++ le 4 s.tok.epoch.toNat)
      if s.boot.stage == .managerWait && s.boot.ident.isSome then s.setStage .preWarm else s)

/-- Send the events of an Ethernet channel again that were sent 10 ms ago or more, oldest first (R416). -/
def State.resend (s : State) (c : Nat) : State :=
  let due (e : EvRec) : Bool := !within s.boot.now e.sent (s.msTicks 10)
  let q := Map.lookD s.evs.queues c []
  if q.any due then
    { s with
      evs := { s.evs with queues := Map.put s.evs.queues c (q.map fun e => if due e then { e with sent := s.boot.now } else e) },
      out := s.out ++ (q.filter due).flatMap fun e => .event (chanOf c) e.seq e.ev :: s.eventLink c }
  else s

/-- EVENT_RETRANSMIT (R416): each unacknowledged event goes out again on its Ethernet channel. -/
def execEventRetransmit (s : State) : Host.Outcome State Fault Refusal :=
  done ((s.fresh.resend 0).resend 1)

end Sys2Proof.Machine
end

