-- ==== Sys2Proof/Machine/DiagCmds.lean ====
section
/-! DEFINITION. The counter, trace, diagnostic and event commands (spec/13 R482 to R487, spec/18 R612 to R621). -/

namespace Sys2Proof.Machine

/-! ### Counters -/

/-- Scope of a counter (Table 18-2): the number of ports or instances it names, whether it names a partition, and a virtual
channel (1: any, 2: any but VC5). `fc` is true for a counter of the FC4. -/
structure CtrScope where
  fc : Bool := false
  ports : Nat := 0
  part : Bool := false
  vc : Nat := 0
deriving DecidableEq, Repr

/-- The counter catalogue (Table 18-2). -/
def ctrScope (cls idx : Nat) : Option CtrScope :=
  match cls with
  | 0x01 => if idx < 2 then some { ports := 72, vc := 1 } else if idx < 6 then some { ports := 72 } else none
  | 0x02 => if idx < 7 then some { ports := 70 } else none
  | 0x03 => if idx < 6 then some { ports := 72 } else if idx = 6 then some {} else none
  | 0x04 => if idx = 0 then some { ports := 72 } else if idx = 1 then some {} else none
  | 0x05 => if idx = 0 then some { ports := 72 } else if idx = 1 then some { ports := 64, vc := 1 } else none
  | 0x06 => if idx < 6 then some { part := true } else none
  | 0x07 => if idx < 4 then some { part := true } else none
  | 0x08 => if idx < 4 then some { part := true } else none
  | 0x09 => if idx = 0 then some { part := true } else none
  | 0x0A => if idx < 2 then some { part := true, vc := 2 } else none
  | 0x0B => if idx < 4 then some { part := true } else if idx = 4 then some { ports := 32 } else none
  | 0x0C => if idx < 6 then some { part := true } else none
  | 0x0D => if idx = 0 then some { part := true } else none
  | 0x20 => if idx < 3 then some { fc := true } else none
  | 0x21 => if idx = 0 then some { fc := true } else none
  | 0x22 => if idx < 3 then some { fc := true, ports := 2 } else none
  | 0x23 => if idx = 0 then some { fc := true, ports := 4 } else none
  | 0x24 => if idx = 0 then some { fc := true, ports := 4 } else none
  | _ => none

/-- Fields of a counter ID (Table 18-1). -/
def idClass (i : BitVec 32) : Nat := (fld i 26 6).toNat
def idUnit (i : BitVec 32) : Nat := (fld i 23 3).toNat
def idPort (i : BitVec 32) : Nat := (fld i 16 7).toNat
def idPart (i : BitVec 32) : Nat := (fld i 12 4).toNat
def idVc (i : BitVec 32) : Nat := (fld i 9 3).toNat
def idIndex9 (i : BitVec 32) : Nat := (fld i 0 9).toNat

/-- The scope of an ID that names a counter (R613). -/
def ctrOf (i : BitVec 32) : Option CtrScope :=
  match ctrScope (idClass i) (idIndex9 i) with
  | none => none
  | some c =>
    let unit := if c.fc then idUnit i == 4 else decide (idUnit i < 4)
    let port := if c.ports = 0 then idPort i == 0x7F else decide (idPort i < c.ports)
    let part := c.part || idPart i == 0
    let vc := if c.vc = 0 then idVc i == 0 else c.vc == 1 || idVc i != 5
    if unit && port && part && vc then some c else none

/-- Key of a counter ID in the counter tables: the ID with `UNIT` 0. -/
def idKey (i : BitVec 32) : Nat := ctrKey (idClass i) (idPort i) (idPart i) (idVc i) (idIndex9 i)

/-- An in-band `ctr.read` is served for this ID (R621). -/
def State.ctrAllowed (s : State) (f : Frame) (d : DieId) (i : BitVec 32) : Bool :=
  match ctrScope (idClass i) (idIndex9 i) with
  | none => false
  | some c =>
    idUnit i == d.val &&
      ((c.part && s.originPart f d == some (idPart i)) ||
        (decide (0 < c.ports) && s.isDown f.port.val && idPort i == f.port.val))

/-- A record of `ctr.read` (R482, R618, R619). -/
def State.ctrRecord (s : State) (f : Frame) (i : BitVec 32) : List Byte :=
  let die := dieOf (BitVec.ofNat 8 (idUnit i))
  let tick := match die with | some e => if (s.die e).on then (s.die e).now else s.boot.now | none => s.boot.now
  let flag (b : Nat) : List Byte := le 8 0 ++ le 8 (tick.toNat + 2 ^ b)
  let denied := match f.chan with | .ib d => !s.ctrAllowed f d i | _ => false
  if denied then flag 61
  else match ctrOf i, die with
    | none, _ => flag 63
    | some _, some e =>
      if (s.die e).on then le 8 (Map.lookD (s.die e).ctrView (idKey i) 0).toNat ++ le 8 tick.toNat else flag 62
    | some _, none => le 8 (Map.lookD s.mbx.ctrView (idKey i) 0).toNat ++ le 8 tick.toNat

/-- CTR_READ (R482, R612 to R621). -/
def execCtrRead (f : Frame) (ids : List (BitVec 32)) (s : State) : Host.Outcome State Fault Refusal :=
  let n := ids.length
  done (s.serveRead { op := 0x0C01, change := false, cap := some 0, len := 4 + 4 * n } f fun t =>
    if n = 0 || 64 < n then (.badField, []) else (.ok, ids.flatMap fun i => t.ctrRecord f i))

/-! ### Trace -/

/-- The payload of `trace.read` for `n` bytes from an offset (R483, R622). -/
def Trace.block (t : Trace) (offset n : Nat) : List Byte :=
  le 4 t.woff ++ le 4 t.wraps.toNat ++ le 4 t.lost.toNat ++ le 4 0 ++
    (List.range n).map fun i => Mem.read 0 t.mem ((offset + i) % 1048576)

/-- TRACE_READ (R483, R622): bytes past the end of the buffer are those from its start. -/
def execTraceRead (f : Frame) (offset : BitVec 32) (length : BitVec 16) (s : State) : Host.Outcome State Fault Refusal :=
  let n := length.toNat
  done (s.serveRead { op := 0x0C20, change := false, len := 8 } f fun t =>
    if 1048575 < offset.toNat || n = 0 || 3952 < n then (.badField, [])
    else (.ok, t.trace.block offset.toNat n))

/-! ### Diagnostics -/

/-- DIAG_READ (R484): the words are open. -/
def execDiagRead (f : Frame) (die window : Byte) (addr : BitVec 32) (count : BitVec 16) (s : State) :
    Host.Outcome State Fault Refusal :=
  let n := count.toNat
  done (s.serve { op := 0x0C30, change := true, len := 12 } f fun t =>
    match dieOf die with
    | none => (t, .now .badField [])
    | some d =>
      if 1 < window.toNat || n = 0 || 990 < n then (t, .now .badField [])
      else if window = 0 && !(t.die d).on then (t, .now .dieOff [])
      else ({ t with free := t.free + n },
            .now .ok ((List.range n).flatMap fun i => le 4 (Config.diagWord addr (t.free + i)).toNat)))

/-- DIAG_WRITE (R382, R484): no rule binds the die after it, until its next bring-up. -/
def execDiagWrite (f : Frame) (die window : Byte) (_addr : BitVec 32) (words : List (BitVec 32)) (s : State) :
    Host.Outcome State Fault Refusal :=
  let n := words.length
  done (s.serve { op := 0x0C31, change := true, len := 12 + 4 * n } f fun t =>
    match dieOf die with
    | none => (t, .now .badField [])
    | some d =>
      if 1 < window.toNat || n = 0 || 989 < n then (t, .now .badField [])
      else if t.debugLocked then (t, .now .debugLocked [])
      else if window = 0 then
        if (t.die d).on then (t.modDie d fun x => { x with unbound := true }, .now .ok []) else (t, .now .dieOff [])
      else (t, .now .ok []))

/-- DIAG_LOOP (R34, R485): the packets enter segment 47 on their way to port 71. -/
def execDiagLoop (f : Frame) (die port : Byte) (count len : BitVec 16) (s : State) : Host.Outcome State Fault Refusal :=
  let n := count.toNat
  done (s.serve { op := 0x0C32, change := true, len := 8 } f fun t =>
    match dieOf die with
    | none => (t, .now .badField [])
    | some d =>
      if port ≠ 71 || n = 0 || 256 < n || 4096 < len.toNat || len.toNat % 4 ≠ 0 then (t, .now .badField [])
      else if !(t.die d).on then (t, .now .dieOff [])
      else if (t.die d).loop.isSome then (t, .now .busy [])
      else
        (t.modDie d fun x =>
          ({ x with loop := some { count := n, len := len.toNat, queued := n } } : Die).fillLoop n, .now .accepted []))

/-- LOOPBACK_COMPLETE (R485): every packet of the loop has gone into port 71. -/
def execLoopbackComplete (d : DieId) (s : State) : Host.Outcome State Fault Refusal :=
  let s := s.fresh
  done (match (s.die d).loop with
    | none => s
    | some l =>
      if 0 < l.queued || (s.die d).loopHead.isSome then s
      else (s.modDie d fun x => { x with loop := none }).raiseDie 0x0C82 d 71 0xFF 0xFF 0
        (le 2 l.sent ++ le 2 l.received ++ le 2 l.mismatched))

/-! ### Events -/

/-- Acknowledge events of a channel up to a sequence; an entry that frees posts `evt.lost` first (R416, R417). -/
def State.ackEvents (s : State) (c : Nat) (seq : BitVec 32) : State :=
  let q := Map.lookD s.evs.queues c []
  let rest := q.filter fun e => decide (seq.toNat < e.seq.toNat)
  let s := { s with evs := { s.evs with queues := Map.put s.evs.queues c rest } }
  let n := Map.lookD s.evs.lost c 0
  if rest.length < q.length && n ≠ 0 then
    ({ s with evs := { s.evs with lost := Map.rem s.evs.lost c } }).post c
      { Event.mk0 0x0C80 s.boot.now with detail := le 4 n.toNat }
  else s

/-- EVT_ACK (R416, R417, R486): a signature, but no token. -/
def execEvtAck (f : Frame) (ackSeq : BitVec 32) (s : State) : Host.Outcome State Fault Refusal :=
  let c := chanNum f.chan
  done (s.serve { op := 0x0C40, change := false, len := 4 } f fun t =>
    if (Map.lookD t.evs.next c 0).toNat ≤ ackSeq.toNat then (t, .now .badField [])
    else (t.ackEvents c ackSeq, .now .ok []))

/-- Serve `evt.subscribe`: in-band only (R487). -/
def State.serveSub (s : State) (f : Frame) (part : Byte) (act : List Sub → Sub → Except Status (List Sub)) : State :=
  s.serve { op := 0x0C41, change := true, cap := some 3, len := 4, part := some part } f fun t =>
    match f.chan with
    | .ib d =>
      if 15 < part.toNat then (t, .now .badField [])
      else
        let l := Map.lookD t.evs.subs part.toNat []
        let u : Sub := { d := d, port := f.port.val, ep := if t.isDown f.port.val then t.endpointId d f.port.val
                                                           else f.origin.setWidth 11 }
        match act l u with
        | .error st => (t, .now st [])
        | .ok m => ({ t with evs := { t.evs with subs := Map.put t.evs.subs part.toNat m } },
                    .now .ok [BitVec.ofNat 8 m.length, 0, 0, 0])
    | _ => (t, .now .badField [])

/-- EVT_SUBSCRIBE (R487): an endpoint that is registered already stays registered once. -/
def execEvtSubscribe (f : Frame) (part : Byte) (s : State) : Host.Outcome State Fault Refusal :=
  done (s.serveSub f part fun l u =>
    if l.contains u then .ok l else if 4 ≤ l.length then .error .busy else .ok (l ++ [u]))

/-- EVT_UNSUBSCRIBE (R487). -/
def execEvtUnsubscribe (f : Frame) (part : Byte) (s : State) : Host.Outcome State Fault Refusal :=
  done (s.serveSub f part fun l u => .ok (l.filter fun v => v != u))

end Sys2Proof.Machine
end

