-- ==== Sys2Proof/Machine/EffectCmds.lean ====
section
/-! DEFINITION. Changes of a die that take effect at a tick boundary: route versions (spec/05 R210), re-maps (spec/16 R567 to R569),
`COLL_OUT` (spec/07 R281, R282), the end of zeroing (spec/10 R364 to R367, spec/07 R290), the entry of a partition into OPEN (spec/10
R354), fences (spec/16 R570), and the stages, timeouts and records of pours (spec/07 R271, R295, R297). -/

namespace Sys2Proof.Machine

/-! ### Route versions -/

/-- ROUTE_FLIP_EFFECT (R210). -/
def execRouteFlipEffect (d : DieId) (part : BitVec 4) (s : State) : Host.Outcome State Fault Refusal :=
  done (s.fresh.modDie d fun x =>
    if x.on then x.modBoth fun t => t.modVer part.toNat fun r => r.flipAt x.now else x)

/-- ROUTE_RETIRE (R210). -/
def execRouteRetire (d : DieId) (part : BitVec 4) (s : State) : Host.Outcome State Fault Refusal :=
  done (s.fresh.modDie d fun x =>
    if x.on then x.modBoth fun t => t.modVer part.toNat fun r => r.settle x.now else x)

/-! ### Re-map -/

/-- A group has a logical rank as a member (R257, R296). -/
def hasRank (c : BitVec 128) (rank : Nat) : Bool :=
  (List.range (gRanks c)).any fun i => (gBase c + i * gStride c) % 2048 == rank

/-- The die takes the re-map into its tables (R567): the alias, the epoch, `LOST_TICK`, the port of the old endpoint, and the loss on
the flows that have it as `SRC` or `DST`, those whose first packet comes later included (R222). -/
def Die.applyRemap (x : Die) (part : Nat) (r : Remap) (old : BitVec 11) (ownPort : Option Nat) : Die :=
  let hit (k : Nat) : Bool := keyPart k == part && (k % 2 ^ 11 == old.toNat || k / 2 ^ 11 % 2 ^ 11 == old.toNat)
  let x := x.modBoth fun t =>
    { (t.modPart part fun q => { q with aliasEpoch := r.epoch }) with
      ranks := Map.put t.ranks (2048 * part + r.rank.toNat) (1#1 ++ 0#4 ++ r.spare),
      lost := Map.put t.lost old.toNat x.now,
      portPart := match ownPort with | some p => Map.rem t.portPart p | none => t.portPart }
  { x with
    remaps := Map.rem x.remaps part,
    sprayRx := Map.mapVal x.sprayRx fun k f => if hit k then { f with loss := true } else f,
    order := Map.mapVal x.order fun k f => if hit k then { f with loss := true } else f,
    moved := Map.put x.moved (2048 * part + old.toNat) true }

/-- `fault.remap_done` of the tray, with the packets to the old endpoint that its dies discarded (R569). -/
def State.remapDone (s : State) (part : Nat) (r : Remap) (old : BitVec 11) : State :=
  let n := allDieIds.foldl (fun n d => n + (Map.lookD (s.die d).lostTo old.toNat 0).toNat) 0
  s.raise { Event.mk0 0x0B80 s.boot.now with
    part := BitVec.ofNat 8 part,
    detail := le 2 r.rank.toNat ++ le 2 old.toNat ++ le 2 r.spare.toNat ++ [0, 0] ++ le 4 r.epoch.toNat ++ le 4 n }

/-- A pending re-map that has fallen due takes effect on a die (R296, R347, R567, R568); the tray reports it once its last die has
made it. -/
def State.remapDue (s : State) (d : DieId) (part : Nat) : State :=
  let x := s.die d
  match Map.look x.remaps part with
  | none => s
  | some r =>
    if !reached x.now r.effect then s
    else
      let old := ((x.view.aliasOf part r.rank.toNat x.now).getD r.rank)
      let own := if s.isLeaf && leafOf old == s.leafIndex d &&
          Map.look x.tab.portPart (old.toNat % 32) == some (BitVec.ofNat 4 part) then some (old.toNat % 32) else none
      let s := s.abortAll d 2 fun q => q.part.toNat == part && hasRank (x.view.group q.key.group.toNat).control r.rank.toNat
      let s := (s.modDie d fun x => x.applyRemap part r old own).dropUnassigned d
      if allDieIds.any fun e => (s.die e).on && Map.look (s.die e).remaps part == some r then s else s.remapDone part r old

/-- REMAP_EFFECT (R567 to R569). -/
def execRemapEffect (d : DieId) (part : BitVec 4) (s : State) : Host.Outcome State Fault Refusal :=
  let s := s.fresh
  done (if (s.die d).on then s.remapDue d part.toNat else s)

/-! ### COLL_OUT -/

/-- `COLL_OUT` after the changes that have fallen due, and those that have not (R281). -/
def Die.collDue (x : Die) : BitVec 32 × List (Tick × Nat × Bool) :=
  ((x.collNext.filter fun c => reached x.now c.1).foldl (fun m c => setBit m c.2.1 c.2.2) x.tab.collOut,
   x.collNext.filter fun c => !reached x.now c.1)

/-- COLL_OUT_EFFECT (R281, R282): re-maps that fall due at the same boundary come first (R636); a spine die then ends every pour of a
slot whose serving die changes. -/
def execCollOutEffect (d : DieId) (s : State) : Host.Outcome State Fault Refusal :=
  let s := s.fresh
  done (if !(s.die d).on then s
    else
      let s := (List.range 16).foldl (fun (t : State) p => t.remapDue d p) s
      let x := s.die d
      let new := x.collDue
      let s := if s.isSpine then
          s.abortAll d 3 fun q => q.place == .level3 &&
            let alt := gAlt (x.view.group q.key.group.toNat).control
            servingSpine x.view.collOut alt q.slot != servingSpine new.1 alt q.slot
        else s
      s.modDie d fun x => { (x.modBoth fun t => { t with collOut := new.1 }) with collNext := new.2 })

/-! ### Zeroing -/

/-- Jobs of an engine that have ended by this boundary, and the others. -/
def Die.doneJobs (x : Die) (jobs : List ZeroJob) : List ZeroJob × List ZeroJob :=
  (jobs.filter fun j => decide (j.endNs ≤ x.now.toNat * x.ns), jobs.filter fun j => !decide (j.endNs ≤ x.now.toNat * x.ns))

/-- POT_ZERO_DONE (R290, R364, R366): a pot is usable from the first boundary at or after the end of its zeroing. -/
def execPotZeroDone (d : DieId) (s : State) : Host.Outcome State Fault Refusal :=
  done (s.fresh.modDie d fun x =>
    if !x.on then x
    else
      let j := x.doneJobs x.potJobs
      { x with
        potJobs := j.2,
        pots := j.1.foldl (fun m i => Map.upd m i.item {} fun p => { p with zeroing := j.2.any fun k => k.item == i.item }) x.pots })

/-- SEGMENT_ZERO_DONE (R364, R366, R367): a zeroed segment counts in the quota from this boundary, and a returned one that holds
nothing is free. -/
def execSegmentZeroDone (d : DieId) (s : State) : Host.Outcome State Fault Refusal :=
  done (State.planPower <| s.fresh.modDie d fun x =>
    if !x.on then x
    else
      let j := x.doneJobs x.segJobs
      let set (m : Map Seg) : Map Seg := j.1.foldl (fun m i =>
        if j.2.any fun k => k.item == i.item then m
        else Map.upd m i.item {} fun g => { g with inQuota := g.owner.isSome && !g.returning }) m
      (({ x with segJobs := j.2 }).modBoth fun t => { t with segs := set t.segs }).freeReturned)

/-! ### Partitions -/

/-- Work of the zeroing engines for a partition that has not ended (R354). -/
def Die.zeroing (x : Die) (part : Nat) : Bool :=
  ((x.doneJobs x.segJobs).2.any fun j => (x.tab.seg j.item).owner == some (BitVec.ofNat 4 part)) ||
    (x.doneJobs x.potJobs).2.any fun j => (x.potsOf part).contains j.item

/-- PART_OPEN_READY (R354). -/
def execPartOpenReady (d : DieId) (part : BitVec 4) (s : State) : Host.Outcome State Fault Refusal :=
  let s := s.fresh
  let x := s.die d
  let p := part.toNat
  done (if x.on && (x.view.part p).state == .reopening && (x.tab.part p).state == .reopening && !x.zeroing p then
      (s.modDie d fun x => x.modBoth fun t => t.modPart p fun q => { q with state := .opened }).raiseDie 0x0580 d 0xFF
        (part.setWidth 8) 0xFF 0 (le 2 (x.tab.part p).gen.toNat)
    else s)

/-- PART_FENCE (R560, R570): a fault has touched a partition in RESTART mode. -/
def execPartFence (d : DieId) (part : BitVec 4) (s : State) : Host.Outcome State Fault Refusal :=
  let s := s.fresh
  let x := s.die d
  let p := part.toNat
  let st := (x.tab.part p).state
  done (if !x.on || !bit x.touched p then s
    else if st != .opened && st != .reopening then s.modDie d fun x => { x with touched := setBit x.touched p false }
    else
      let s := s.modDie d fun x =>
        { (x.modBoth fun t => t.modPart p fun q => { q with state := .fenced }) with fencedAt := Map.put x.fencedAt p x.now }
      let s := s.raiseDie 0x0B82 d 0xFF (part.setWidth 8) 0xFF 0 (le 2 (x.tab.part p).gen.toNat)
      let s := s.abortAll d 4 fun q => q.part == part
      (s.modDie d fun x => { x with touched := setBit x.touched p false }).xoffWithheld d)

/-- FENCE_DISCARD (R570). -/
def execFenceDiscard (d : DieId) (part : BitVec 4) (s : State) : Host.Outcome State Fault Refusal :=
  done (s.fresh.modDie d fun x =>
    match Map.look x.fencedAt part.toNat with
    | some f =>
      if x.on && (x.tab.part part.toNat).state == .fenced && reached x.now (f + 64) then x.dropPart part.toNat else x
    | none => x)

/-! ### Pours -/

/-- BLEND_STAGE_START (R79, R80, R274 to R280, R284 to R293, R297): every pour of the name at the place, one for each slot at
level 3. -/
def execBlendStageStart (d : DieId) (k : PourKey) (place : Place) (s : State) : Host.Outcome State Fault Refusal :=
  let s := s.fresh
  let slots := ((s.die d).pours.filter fun q => q.key == k && q.place == place).map fun q => q.slot
  done (if (s.die d).on then slots.foldl (fun (t : State) n => t.startStage d k place n) s else s)

/-- POUR_TIMEOUT (R295). -/
def execPourTimeout (d : DieId) (k : PourKey) (place : Place) (s : State) : Host.Outcome State Fault Refusal :=
  let s := s.fresh
  let x := s.die d
  let c := (x.view.group k.group.toNat).control
  let late (q : Pour) : Bool :=
    q.key == k && q.place == place && !q.started && !q.complete c && reached x.now (q.first + BitVec.ofNat 48 (gTimeout c))
  done (if x.on && x.pours.any late then s.abortPour d k 4 else s)

/-- ABORT_RECORD_EXPIRY (R271): the record of an ended pour is kept for `POUR_TIMEOUT` ticks, and with it goes what the die kept to
relay for the pour. -/
def execAbortRecordExpiry (d : DieId) (k : PourKey) (s : State) : Host.Outcome State Fault Refusal :=
  done (s.fresh.modDie d fun x =>
    if x.on && x.aborts.any (fun r => r.key == k && reached x.now r.until_) then
      { x with aborts := x.aborts.filter fun r => r.key != k,
               relays := x.relays.filter fun r => r.key != k,
               relayUps := x.relayUps.filter fun r => r.key != k,
               relayDowns := x.relayDowns.filter fun r => r.key != k }
    else x)

end Sys2Proof.Machine
end

