-- ==== Sys2Proof/Machine/EgressCmds.lean ====
section
/-! DEFINITION. What leaves a die: a packet boundary of a port (spec/03 R101 to R103), a granted slot (spec/05 R201), and reach notices
(spec/05 R187, spec/11 R422). -/

namespace Sys2Proof.Machine

/-- EGRESS_SELECT (R101 to R103); port 71 takes the packets of the diagnostic loop in turn (R34). -/
def execEgressSelect (d : DieId) (p : PortId) (ns : Nat) (s : State) : Host.Outcome State Fault Refusal :=
  let s := s.fresh
  done (if p = 71 then (if (s.die d).on then s.sendLoop d else s)
    else if s.sends d p.val then (s.modDie d fun x => { x with clock := ns }).select d p.val ns else s)

/-- CIRCUIT_SLOT_SEND (R201, R204, R206). -/
def execCircuitSlotSend (d : DieId) (p : PortId) (slot : Fin 16) (s : State) : Host.Outcome State Fault Refusal :=
  let s := s.fresh
  done (if s.sends d p.val then (s.modDie d fun x => { x with clock := slot.val * x.ns }).slotStart d p.val slot.val else s)

/-! ### Reach notices -/

/-- Ports on which a spine tray sends notices: every in-service down port of a powered die. -/
def State.noticePorts (s : State) : List (DieId × Nat) :=
  allDieIds.flatMap fun d =>
    let x := s.die d
    if x.on then (x.ports.filter fun e => decide (e.1 < 64) && e.2.inService).map fun e => (d, e.1) else []

/-- The payload of a notice (R481). -/
def Notice.bytes (n : Notice) : List Byte :=
  [n.plane.setWidth 8, n.spine.setWidth 8, n.leaf.setWidth 8, if n.restored then 1 else 0] ++ le 4 0 ++ le 8 n.decl.toNat

/-- Send a notice on every in-service down port of every die, each in a mailbox packet (R422). -/
def State.sendNotice (s : State) (n : Notice) : State :=
  s.noticePorts.foldl (fun (t : State) e =>
    (t.emit (.notice e.1 e.2 n)).mail
      { d := e.1, port := e.2, type := 3, tag := none,
        bytes := { kind := 4, op := 0x0B40, seq := Config.mailSeq 0x0B40 (n.decl.setWidth 16) : FrameHead }.bytes n.bytes }) s

/-- REACH_NOTICE_SEND (R187, R189, R422): the notice of a change of the link from spine die `spine` to leaf die `leaf`. -/
def execReachNoticeSend (spine leaf : Byte) (s : State) : Host.Outcome State Fault Refusal :=
  let s := s.fresh
  let k := 64 * spine.toNat + leaf.toNat
  done (match Map.look s.notes.due k with
    | some (restored, decl) =>
      if s.listening && s.isSpine && decide (spine.toNat < 32) && decide (leaf.toNat < 64) then
        let n : Notice :=
          { plane := BitVec.ofNat 2 s.plane, spine := spine.setWidth 5, leaf := leaf.setWidth 6, restored := restored, decl := decl }
        ({ s with notes := { s.notes with due := Map.rem s.notes.due k, sent := s.notes.sent ++ [(n, s.boot.now)] } }).sendNotice n
      else s
    | none => s)

/-- NOTICE_REPEAT (R422): each notice goes out once more 64 ticks after it was sent. -/
def execNoticeRepeat (s : State) : Host.Outcome State Fault Refusal :=
  let s := s.fresh
  let due (e : Notice × Tick) : Bool := !within s.boot.now e.2 64
  done (if s.listening then
      (s.notes.sent.filter due).foldl (fun (t : State) e => t.sendNotice e.1)
        { s with notes := { s.notes with sent := s.notes.sent.filter fun e => !due e } }
    else s)

end Sys2Proof.Machine
end

