-- ==== Sys2Proof/Machine/FaultCmds.lean ====
section
/-! DEFINITION. The re-map commands and the received reach notice (spec/13 R479 to R481, spec/16 R562 to R568, spec/05 R188). -/

namespace Sys2Proof.Machine

/-- Take a re-map on a die (R479). -/
def Die.acceptRemap (x : Die) (p : Nat) (rank spare : BitVec 16) (epoch : BitVec 32) (effect : Tick) : Except Status Die :=
  let q := x.tab.part p
  let v := (x.tab.verAt p x.now).sel
  let e := x.tab.route v spare.toNat
  if q.state != .opened || q.restart then .error .partState
  else if (Map.look x.remaps p).isSome then .error .busy
  else if epoch ≠ q.aliasEpoch + 1 || rtKind e = 0 || rtPart e ≠ p then .error .badField
  else if !later effect x.now then .error .tooLate
  else
    let r : Remap := { rank := rank.setWidth 11, spare := spare.setWidth 11, epoch := epoch, effect := effect }
    .ok { x with remaps := Map.put x.remaps p r }

/-- FAULT_REMAP (R479, R564, R568). -/
def execFaultRemap (f : Frame) (part mask : Byte) (rank spare : BitVec 16) (epoch : BitVec 32) (effect : Tick) (s : State) :
    Host.Outcome State Fault Refusal :=
  done (s.serveMask { op := 0x0B01, change := true, len := 24 } f part mask (2047 < rank.toNat || 2047 < spare.toNat)
    (dieAct 0x0B01 5 rank.toNat 1 fun x => x.acceptRemap part.toNat rank spare epoch effect))

/-- FAULT_ALIAS (R563). -/
def execFaultAlias (f : Frame) (part die : Byte) (firstRank count : BitVec 16) (s : State) : Host.Outcome State Fault Refusal :=
  let a := firstRank.toNat
  let n := count.toNat
  done (s.serveDie { op := 0x0B02, change := false, len := 8 } f part die (n = 0 || 2028 < n || 2048 < a + n) fun d t =>
    let x := t.die d
    (t, .ok, le 4 (x.view.part part.toNat).aliasEpoch.toNat ++ le 4 0 ++
      (List.range n).flatMap fun i => match x.view.aliasOf part.toNat (a + i) x.now with
        | some e => le 2 e.toNat
        | none => le 2 0xFFFF))

/-- FAULT_REACH (R188, R281, R376, R422, R423, R481): no response is sent to any notice. -/
def execFaultReach (d : DieId) (p : PortId) (crcOk : Bool) (plane spine leaf state : Byte) (decl : Tick) (s : State) :
    Host.Outcome State Fault Refusal :=
  let s := s.fresh
  done (if !s.listening || !(s.die d).on then s
    else if !crcOk then s.countFc (ctrKey 0x20 0x7F 0 0 1)
    else if !s.holds (!s.isDown p.val) 4 || !s.isLeaf then s
    else if plane.toNat ≠ s.plane then s.countFc (ctrKey 0x20 0x7F 0 0 2)
    else if 31 < spine.toNat || 63 < leaf.toNat || 1 < state.toNat then s
    else s.applyReach spine.toNat leaf.toNat (state == 1) decl)

end Sys2Proof.Machine
end

