-- ==== Sys2Proof/Machine/FwCmds.lean ====
section
/-! DEFINITION. The firmware commands, the choice of an image at boot, and the Fonel Peripheral Serial Master (spec/13 Firmware,
spec/14 R494 to R513, spec/15 R537 to R541). -/

namespace Sys2Proof.Machine

/-! ### Image banks -/

/-- Size of a bank. -/
def bankSize : Nat := 16777216

/-- Image bank `b`. -/
def Firmware.bank (w : Firmware) (b : Bool) : Bank := if b then w.bank1 else w.bank0

/-- The firmware with bank `b` replaced. -/
def Firmware.setBank (w : Firmware) (b : Bool) (k : Bank) : Firmware := if b then { w with bank1 := k } else { w with bank0 := k }

/-- Bytes of a bank; erased flash reads as 0xFF. -/
def Bank.bytes (k : Bank) (off n : Nat) : List Byte := Mem.reads 0xFF k.mem off n

/-- A little-endian field of the image header (Table 13-6). -/
def Bank.field (k : Bank) (off n : Nat) : Nat := leNat (k.bytes off n)

/-- `MAGIC` "SHFW" and `FORMAT` 1. -/
def Bank.headOk (k : Bank) : Bool := k.bytes 0 4 == [0x53, 0x48, 0x46, 0x57] && k.field 4 2 == 1

/-- `LENGTH`. -/
def Bank.length (k : Bank) : Nat := k.field 12 4

/-- `DIGEST` matches the body. -/
def Bank.digestOk (k : Bank) : Bool := sha384 (k.bytes 256 k.length) == k.bytes 32 48

/-- The bank that `fw.write` writes: the one that does not run. -/
def State.stagedBank (s : State) : Bank := s.fw.bank (!s.fw.runBank)

/-! ### Commands -/

/-- `BYTES_WRITTEN` after a write: the end of the highest write of the image being staged. -/
def Firmware.bytesAfter (w : Firmware) (off n : Nat) : Nat :=
  if w.staged = 0 || (off = 0 && 3 ≤ w.staged.toNat) then off + n else max w.bytes.toNat (off + n)

/-- FW_WRITE (R489). -/
def execFwWrite (f : Frame) (offset : BitVec 32) (data : List Byte) (s : State) : Host.Outcome State Fault Refusal :=
  let n := data.length
  let off := offset.toNat
  done (s.serve { op := 0x0E01, change := true, len := 8 + n } f fun t =>
    if n % 4 ≠ 0 || 4064 < 8 + n + 96 || bankSize < off + n then (t, .now .badField [])
    else
      let b := !t.fw.runBank
      let k : Bank := { mem := Mem.writes 0xFF (t.fw.bank b).mem off data }
      let w := { t.fw.setBank b k with staged := 1, bytes := BitVec.ofNat 32 (t.fw.bytesAfter off n) }
      (({ t with fw := w }).flashOp [((if b then 0x2000000 else 0x1000000) + off, data)], .now .ok []))

/-- FW_VERIFY (R490). -/
def execFwVerify (f : Frame) (s : State) : Host.Outcome State Fault Refusal :=
  done (s.serve { op := 0x0E02, change := true, len := 4 } f fun t =>
    ({ t with fw := { t.fw with staged := 2 } }, .now .accepted []))

/-- `SIG` verifies over bytes 0 to 159 of the image against a public key (Table 13-6). -/
def Bank.signedBy (k : Bank) (p : PubKey) : Bool := Machine.signedBy p (k.bytes 0 160) (k.bytes 160 96)

/-- `CAUSE` of `fw.done` for the staged bank (R490). -/
def State.verifyCause (s : State) : Nat :=
  let k := s.stagedBank
  let slot := k.field 7 1
  if !k.headOk || k.length + 256 ≠ s.fw.bytes.toNat then 4
  else if !k.digestOk then 1
  else if s.keyState slot ≠ 1 || 3 < slot || !(Map.look s.tok.keys slot).any k.signedBy then 2
  else if k.field 10 2 < s.floor then 3
  else 0

/-- FW_VERIFY_COMPLETE (R490): the verification of a bank ends, when that bank (true: B) is the staged one and is being verified. -/
def execFwVerifyComplete (bank : Bool) (s : State) : Host.Outcome State Fault Refusal :=
  let s := s.fresh
  done (if s.fw.staged ≠ 2 || bank == s.fw.runBank then s
    else
      let c := s.verifyCause
      ({ s with fw := { s.fw with staged := if c = 0 then 3 else 4 } }).raiseTray 0x0E80 (BitVec.ofNat 8 c)
        (le 2 (s.stagedBank.field 10 2)))

/-- Serve `fw.activate` (R491). -/
def State.serveActivate (s : State) (f : Frame) (now : Bool) : State :=
  s.serve { op := 0x0E03, change := true, len := 4 } f fun t =>
    if !(t.fw.staged = 3 || t.fw.staged = 5) then (t, .now .badField [])
    else if t.fuse.op.isSome then (t, .now .busy [])
    else
      let t := { t with fw := { t.fw with armed := some (!t.fw.runBank), staged := 5 } }
      let t := t.flashOp [t.bankRecord]
      (if now then { t with boot := { t.boot with resetDue := some 3 } } else t, .now .ok [])

/-- FW_ACTIVATE_NEXT_RESET (R491, R540). -/
def execFwActivateNextReset (f : Frame) (s : State) : Host.Outcome State Fault Refusal := done (s.serveActivate f false)

/-- FW_ACTIVATE_NOW (R491): the FC4 resets after its response. -/
def execFwActivateNow (f : Frame) (s : State) : Host.Outcome State Fault Refusal := done (s.serveActivate f true)

/-- The 32 B of `fw.status` (spec/13 Firmware). -/
def State.fwBlock (s : State) : List Byte :=
  let k := s.stagedBank
  [s.fw.runMajor, s.fw.staged] ++ le 2 s.fw.runMinor.toNat ++ le 2 s.fw.runSecurity.toNat ++
    (if s.fw.staged == 0 then le 6 0 else k.bytes 6 1 ++ [0] ++ k.bytes 8 4) ++ le 4 s.fw.bytes.toNat ++
    [if s.fw.bootBank then 1 else 0] ++ le 15 0

/-- FW_STATUS (R491, R540). -/
def execFwStatus (f : Frame) (s : State) : Host.Outcome State Fault Refusal :=
  done (s.serveRead { op := 0x0E04, change := false, len := 0 } f fun t =>
    (.ok, t.fwBlock))

/-! ### Choosing an image -/

/-- A bank passes the checks of the boot ROM (R540). -/
def State.bankPasses (s : State) (b : Bool) : Bool :=
  let k := s.fw.bank b
  let slot := k.field 7 1
  let anyKey := [0, 1, 2, 3].any fun j => s.keyState j == 1
  k.headOk && decide (k.length ≤ 16776960) && k.digestOk && decide (s.floor ≤ k.field 10 2) &&
    (!anyKey ||
      (decide (slot < 4) && s.keyState slot == 1 &&
        (match Map.look s.tok.store slot with
          | some p => keyHashOf p == s.keyHash slot && k.signedBy p
          | none => false)))

/-- The bank that boots: the armed bank or `BOOT_BANK` first, then the other (R539). -/
def State.bootChoice (s : State) : Option Bool :=
  let first := s.fw.armed.getD s.fw.bootBank
  if s.bankPasses first then some first else if s.bankPasses (!first) then some (!first) else none

/-- `STAGED_STATE` after a boot from `b`: a bank that was tried and failed shows as failed; a former running bank is empty of a
staged image (R540). -/
def State.stagedAfter (s : State) (b : Bool) : BitVec 8 :=
  let first := s.fw.armed.getD s.fw.bootBank
  if b ≠ first then 4 else if b ≠ s.fw.runBank then 0 else s.fw.staged

/-- Fields of the boot descriptor are in range, and its CRC and magic correct (Table 14-4). -/
def descGood (d : List Byte) : Bool :=
  let n (i : Nat) : Nat := (d.getD i 0xFF).toNat
  decide (d.length = 32) && d.take 4 == [0x53, 0x48, 0x46, 0x44] && n 4 % 2 == 0 && decide (4 ≤ n 4 ∧ n 4 ≤ 64) &&
    decide (8 ≤ n 5 ∧ n 5 ≤ 31) && n 6 != n 7 && decide (1 ≤ n 8 ∧ n 8 ≤ 32) && decide (1 ≤ n 9 ∧ n 9 ≤ 64) &&
    decide (1 ≤ n 10 ∧ n 10 ≤ 64) && decide (leNat (d.drop 28) = crc32c (d.take 28))

/-- The FPSM reads the boot descriptor (R506). -/
def State.readDesc (s : State) : State :=
  let ok := descGood s.fw.desc
  let w : Firmware := { s.fw with descOk := false, xip := false }
  let s := ({ s with fw := { s.fw with descOk := ok } }).emit (.fpsm (w.openBoot ++ w.readHead 0 0 ++ phaseIn 8 true 32 ++ w.closeBoot))
  if ok then s else s.countFc (ctrKey 0x21 0x7F 0 0 0)

/-- BOOT_IMAGE_CHECK (R506, R539 to R541). -/
def execBootImageCheck (s : State) : Host.Outcome State Fault Refusal :=
  let s := s.fresh
  done (if s.boot.stage != .boot || s.boot.romOnly then s
    else
      let s := s.readDesc
      match s.bootChoice with
      | none => { s with boot := { s.boot with romOnly := true } }
      | some b =>
        let k := s.fw.bank b
        let w := { s.fw with bootBank := b, armed := none, runBank := b, staged := s.stagedAfter b,
                             runMajor := (k.bytes 6 1).headD 0, runMinor := BitVec.ofNat 16 (k.field 8 2),
                             runSecurity := BitVec.ofNat 16 (k.field 10 2) }
        let s := { s with fw := w }
        let s := s.flashOp [s.bankRecord]
        { s with boot := { s.boot with stage := .fuseCheck, stageTick := s.boot.now, checkDue := true } })

/-! ### Execute in place -/

/-- XIP_MISS (R507 to R509, R511). -/
def execXipMiss (core : Fin 4) (addr : BitVec 32) (s : State) : Host.Outcome State Fault Refusal :=
  let s := s.fresh
  let m := (core, addr.toNat / 64)
  done (if s.fw.flashBusy then { s with fw := { s.fw with misses := s.fw.misses ++ [m] } } else s.demandLine m)

/-- FLASH_OP_COMPLETE (R510, R511). -/
def execFlashOpComplete (s : State) : Host.Outcome State Fault Refusal :=
  let s := s.fresh
  done (if !s.fw.flashBusy then s
    else
      let ms := s.fw.misses
      let s := { s with fw := { s.fw with flashBusy := false, lines := [], misses := [] } }
      (ms.foldl (fun (t : State) m => t.demandLine m) s).startWork)

end Sys2Proof.Machine
end

