-- ==== Sys2Proof/Machine/GroupCmds.lean ====
section
/-! DEFINITION. The group, circuit and congestion commands (spec/13 Groups, Circuits, Congestion; spec/05 Circuits;
spec/07 Groups; spec/08 R303). -/

namespace Sys2Proof.Machine

/-! ### Groups -/

/-- The places of a group that hold a pot on a die, in the order in which their pots are assigned (R288, R467). -/
def groupPlaces (leaf : Bool) (home root : Bool) : List Place :=
  if leaf then (if home then [.level1] else []) ++ (if root then [.level2] else []) ++ (if home then [.delivery] else [])
  else [.level3]

/-- A control word with the defaults of Table 07-1 for zero fields, and only the bits that the requester gives (R465, R7). -/
def controlAsked (c : BitVec 128) : BitVec 128 :=
  let c := c &&& 0x000001FFFFE001FF7FFFFFFFFFFFFFE0#128
  let c := if gCap c = 0 then setFld c 50 11 256 else c
  let c := if gAlt c = 0 then setFld c 64 5 16 else c
  if gTimeout c = 0 then setFld c 85 20 16384 else c

/-- Every field of a control word lies in its range (Table 07-1). -/
def controlOk (c : BitVec 128) : Bool :=
  decide (gOp c ≤ 4) && decide (gFmt c ≤ 5) && decide (gOut c ≤ 5) && decide (1 ≤ gRanks c) && decide (gRanks c ≤ 2048) &&
    decide (1 ≤ gStride c) && decide (gCap c ≤ 1024) && decide (1 ≤ gWindow c) && decide (256 ≤ gTimeout c)

/-- The pairing of `OP`, `FMT` and `OUT_FMT` is permitted (R303, Table 08-1). -/
def pairingOk (op fmt out : Nat) : Bool :=
  match op with
  | 0 | 4 => decide (fmt ≤ 4) && decide (out ≤ 2)
  | 1 | 2 => (decide (fmt ≤ 4) && decide (out ≤ 2)) || (fmt == 5 && out == 5)
  | 3 => fmt == 5 && out == 5
  | _ => false

/-- Endpoints of the group ranks by the alias table in force; none when some rank has no alias (R257, R466). -/
def Die.groupEndpoints (x : Die) (p : Nat) (c : BitVec 128) : Option (List (BitVec 11)) :=
  (List.range (gRanks c)).mapM fun i =>
    let r := gBase c + i * gStride c
    if 2047 < r then none else x.view.aliasOf p r x.now

/-- Leaf index of the home die of every block (R259). -/
def homesOf (c : BitVec 128) (eps : List (BitVec 11)) : List Nat :=
  (List.range (gBlocks c)).map fun b => leafOf (eps.getD (32 * b) 0)

/-- Leaf index of the root die of every tray set (R259). -/
def rootsOf (c : BitVec 128) (homes : List Nat) : List Nat :=
  (List.range (gSets c)).map fun t => 4 * (homes.getD (4 * t) 0 / 4) + gRootDie c

/-- No two entries of a list are equal. -/
def distinct (l : List Nat) : Bool := l.eraseDups.length == l.length

/-- `BLOCK_HOME` of a list of leaf indices (Table 07-2). -/
def blockHomes (homes : List Nat) : BitVec 512 := BitVec.ofNat 512 (leNat (homes.map fun l => BitVec.ofNat 8 (128 + l)))

/-- The control word as a die stores it: `VALID`, `PART`, and its own home and root fields (R465). -/
def controlStored (c : BitVec 128) (p : Nat) (home root : Option Nat) : BitVec 128 :=
  let c := setFld (setBit c 0 true) 1 4 (BitVec.ofNat 4 p)
  let c := match home with | some b => setFld (setBit c 73 true) 74 6 (BitVec.ofNat 6 b) | none => c
  match root with | some t => setFld (setBit c 80 true) 81 4 (BitVec.ofNat 4 t) | none => c

/-- Pots of a die that no group holds and no zeroing touches. -/
def Die.freePots (x : Die) : List Nat :=
  (List.range 64).filter fun n => (x.pot n).owner.isNone && !x.potJobs.any fun j => j.item == n

/-- Assign pots to the places of a group, `WINDOW` to each, and queue those whose last owner was another group (R288, R290,
R467). -/
def Die.assignPots (x : Die) (p g : Nat) (window : Nat) (places : List Place) : Option Die :=
  let n := window * places.length
  let free := x.freePots
  if free.length < n then none
  else
    let use := free.take n
    let own := (BitVec.ofNat 4 p, (x.tab.part p).gen, BitVec.ofNat 12 g)
    let dirty := use.filter fun k => (x.pot k).last != some own
    let pots := (List.range n).foldl (fun m i =>
      Map.upd m (use.getD i 0) {} fun e =>
        { e with owner := some (own.1, own.2.2, places.getD (i / window) .level1), last := some own, pour := none }) x.pots
    some (({ x with pots := pots }).zeroPots dirty)

/-- First tick in which every pot of a list is usable (R290, R366). -/
def Die.readyTick (x : Die) (pots : List Nat) : Tick :=
  let ends := (x.potJobs.filter fun j => pots.contains j.item).map (·.endNs)
  if ends.isEmpty then x.now else BitVec.ofNat 48 (x.boundaryAfter (ends.foldl max 0))

/-- `grp.open` at a die, with the checks of R466 in order. -/
def Die.grpOpen (x : Die) (leaf : Option Nat) (p g : Nat) (control : BitVec 128) (weights : BitVec 1024) : Except Status Die :=
  if (x.tab.part p).state != .opened then .error .partState
  else if !x.isDrained p 0x06 then .error .notDrained
  else if gValid (x.tab.group g).control then .error .busy
  else
    let c := controlAsked control
    if !controlOk c || (weights ≠ 0 && gOp c ≠ 4) then .error .badField
    else match x.groupEndpoints p c with
      | none => .error .badField
      | some eps =>
        let homes := homesOf c eps
        let roots := rootsOf c homes
        if !pairingOk (gOp c) (gFmt c) (gOut c) then .error .groupFormat
        else if !distinct homes || !distinct roots then .error .groupShape
        else
          let home := leaf.bind fun l => homes.findIdx? (· == l)
          let root := leaf.bind fun l => roots.findIdx? (· == l)
          match x.assignPots p g (gWindow c) (groupPlaces leaf.isSome home.isSome root.isSome) with
          | none => .error .noPots
          | some y =>
            let e : Group := { control := controlStored c p home root, weights := weights, blockHome := blockHomes homes }
            .ok (y.modTab fun t => { t with groups := Map.put t.groups g e })

/-- Leaf index of a die of a LEAF tray. -/
def State.leafOption (s : State) (d : DieId) : Option Nat := if s.isLeaf then some (s.leafIndex d) else none

/-- GRP_OPEN (R259 to R262, R288, R290, R303, R465 to R467). -/
def execGrpOpen (f : Frame) (part mask : Byte) (group : BitVec 16) (control : BitVec 128) (weights : BitVec 1024) (s : State) :
    Host.Outcome State Fault Refusal :=
  let g := (group &&& 0xFFF).toNat
  let p := part.toNat
  done (s.serveMaskWith { op := 0x0601, change := true, cap := some 1, len := 152 } f part mask false ((0, 0) : Nat × Tick)
    (fun d t =>
      let r := dieAct 0x0601 2 g 1 (fun x => x.grpOpen (t.leafOption d) p g control weights) d t
      let x := r.1.die d
      (r.1, r.2, if r.2 = .ok then ((x.groupPots p g).length, x.readyTick (x.groupPots p g)) else (0, 0)))
    fun _ l =>
      let ready := l.foldl (fun (m : Tick) e => if later e.2 m then e.2 else m) 0
      (l.map fun e => BitVec.ofNat 8 e.1) ++ le 4 0 ++ le 8 ready.toNat)

/-- `grp.close` at a die (R262, R468; that the drain is looked for first is a choice, log entry 139). -/
def Die.grpClose (x : Die) (p g : Nat) : Except Status Die :=
  let e := x.tab.group g
  if !x.isDrained p 0x06 then .error .notDrained
  else if gValid e.control && gPart e.control != p then .error .badField
  else if !gValid e.control then .ok x
  else
    let held := x.groupPots p g
    let x := { x with pours := x.pours.filter fun q => q.key.group.toNat != g,
                      pots := held.foldl (fun m n => Map.upd m n {} fun e => { e with owner := none, pour := none }) x.pots }
    .ok (x.modTab fun t => { t with groups := Map.put t.groups g { e with control := setBit e.control 0 false } })

/-- GRP_CLOSE (R261, R262, R468). -/
def execGrpClose (f : Frame) (part mask : Byte) (group : BitVec 16) (s : State) : Host.Outcome State Fault Refusal :=
  let g := (group &&& 0xFFF).toNat
  done (s.serveMask { op := 0x0602, change := true, cap := some 1, len := 4 } f part mask false
    (dieAct 0x0602 2 g 1 fun x => x.grpClose part.toNat g))

/-- The 96 B of `grp.status` (Table 13-3); an entry that is not VALID for the partition reads as zero. -/
def Die.groupRecord (x : Die) (p g : Nat) : List Byte :=
  let e := x.tab.group g
  if gValid e.control && gPart e.control == p then
    let pots := x.groupPots p g
    let last : List Byte := match Map.look x.lastAbort g with
      | some r => [r.status.setWidth 8] ++ le 4 (r.key.pour.toNat + (if r.key.gather then 2 ^ 20 else 0) + 2 ^ 31) ++ le 8 r.tick.toNat
      | none => le 13 0
    le 16 e.control.toNat ++ le 64 e.blockHome.toNat ++
      [BitVec.ofNat 8 pots.length, BitVec.ofNat 8 (pots.filter fun n => (x.pot n).zeroing).length,
       BitVec.ofNat 8 (x.pourKeys fun q => q.key.group.toNat == g && q.pot.isSome).length] ++ last
  else le 96 0

/-- GRP_STATUS (R261, Table 13-3). -/
def execGrpStatus (f : Frame) (part die : Byte) (group : BitVec 16) (s : State) : Host.Outcome State Fault Refusal :=
  done (s.serveDie { op := 0x0603, change := false, cap := some 0, len := 4 } f part die false fun d t =>
    (t, .ok, (t.die d).groupRecord part.toNat (group &&& 0xFFF).toNat))

/-! ### Circuits -/

/-- Slots of a port granted to the valid entries that pass a test, as they stand after this tick's writes and as they stood at
its start: a released slot is free from the next boundary (R202, R471). -/
def Die.slotsTaken (x : Die) (port : Nat) (p : Nat → Bool) : BitVec 16 :=
  let one (m : BitVec 16) (e : Nat × BitVec 64) : BitVec 16 :=
    if ccValid e.2 && ccEgress e.2 == port && p (ccPart e.2) then m ||| ccSlots e.2 else m
  x.view.circuits.foldl one (x.tab.circuits.foldl one 0)

/-- `circ.setup` at a die, with the checks of R469 in order. -/
def Die.circSetup (x : Die) (p c : Nat) (entry : BitVec 64) (lease : BitVec 32) : Except Status Die :=
  let q := x.tab.part p
  let port := ccEgress entry
  if q.state != .opened then .error .partState
  else if !x.isDrained p 0x20 then .error .notDrained
  else if ccValid (x.tab.circuit c) then .error .busy
  else if !ccValid entry || ccPart entry ≠ p || 69 < port || ccMax entry = 0 || 8 < ccMax entry || ccSlots entry = 0 then
    .error .badField
  else if x.slotsTaken port (fun _ => true) &&& ccSlots entry ≠ 0 then .error .slotTaken
  else if q.circCap.toNat < popCount (x.slotsTaken port (· == p) ||| ccSlots entry) then .error .overCap
  else
    let lease := if lease = 0 then q.defLease else lease
    .ok (x.modTab fun t => { t with circuits := Map.put t.circuits c (ccClean entry),
                                    leases := Map.put t.leases c (x.now + lease.setWidth 48) })

/-- `circuit.shrunk` of a circuit whose `MAX_PAYLOAD` exceeds the limit of its port, once until the limit covers it again
(R206, R556). -/
def State.checkShrunk (s : State) (d : DieId) (c : Nat) (e : BitVec 64) : State :=
  let x := s.die d
  let q := x.port (ccEgress e)
  if !ccValid e || !q.inService then s
  else if ccMax e ≤ slotUnits x.ns q then s.modDie d fun x => { x with short := Map.rem x.short c }
  else if Map.lookD x.short c false then s
  else
    (s.modDie d fun x => { x with short := Map.put x.short c true }).raiseDie 0x0780 d (BitVec.ofNat 8 (ccEgress e))
      (BitVec.ofNat 8 (ccPart e)) 5 0 (le 2 c ++ [BitVec.ofNat 8 (ccMax e), BitVec.ofNat 8 (slotUnits x.ns q)])

/-- Check every circuit of a port (R206). -/
def State.checkPortCircuits (s : State) (d : DieId) (port : Nat) : State :=
  ((s.die d).tab.circuits.filter fun e => ccEgress e.2 == port).foldl (fun (t : State) e => t.checkShrunk d e.1 e.2) s

/-- CIRC_SETUP (R202, R203, R206, R469). -/
def execCircSetup (f : Frame) (part die : Byte) (circuit : BitVec 16) (entry : BitVec 64) (lease : BitVec 32) (s : State) :
    Host.Outcome State Fault Refusal :=
  let c := circuit.toNat
  done (s.serveDie { op := 0x0701, change := true, len := 24 } f part die (4095 < c) fun d t =>
    let r := dieAct 0x0701 3 c 1 (fun x => x.circSetup part.toNat c entry lease) d t
    if r.2 = .ok then (r.1.checkShrunk d c entry, .ok, le 8 ((r.1.die d).tab.lease c).toNat) else (r.1, r.2, []))

/-- A circuit entry that an action of this tick finds for a partition (R86). -/
def Die.findsCircuit (x : Die) (p c : Nat) : Bool :=
  let ok (e : BitVec 64) : Bool := ccValid e && ccPart e == p
  ok (x.tab.circuit c) && ok (x.view.circuit c) && !Map.lookD x.cleared (262144 + c) false

/-- `circ.renew` at a die (R203, R470). -/
def Die.circRenew (x : Die) (p c : Nat) (lease : BitVec 32) : Except Status Die :=
  if !x.findsCircuit p c then .error .badField
  else
    let lease := if lease = 0 then (x.tab.part p).defLease else lease
    .ok (x.modTab fun t => { t with leases := Map.put t.leases c (x.now + lease.setWidth 48) })

/-- CIRC_RENEW (R203, R470). -/
def execCircRenew (f : Frame) (part mask : Byte) (circuit : BitVec 16) (lease : BitVec 32) (s : State) :
    Host.Outcome State Fault Refusal :=
  let c := circuit.toNat
  done (s.serveMaskWith { op := 0x0702, change := true, len := 8 } f part mask (4095 < c) (0 : Tick)
    (fun d t =>
      let r := dieAct 0x0702 3 c 1 (fun x => x.circRenew part.toNat c lease) d t
      (r.1, r.2, if r.2 = .ok then (r.1.die d).tab.lease c else 0))
    fun _ l => l.flatMap fun t => le 8 t.toNat)

/-- `circ.release` at a die (R471; that an entry that is not VALID needs the drain too is a choice, log entry 139). -/
def Die.circRelease (x : Die) (p c : Nat) : Except Status Die :=
  let e := x.tab.circuit c
  if ccValid e && ccPart e ≠ p then .error .badField
  else if !x.isDrained p 0x20 then .error .notDrained
  else if !ccValid e then .ok x
  else .ok { x with tab := { x.tab with circuits := Map.rem x.tab.circuits c, leases := Map.rem x.tab.leases c },
                    cleared := Map.put x.cleared (262144 + c) true, short := Map.rem x.short c }

/-- CIRC_RELEASE (R204, R471). -/
def execCircRelease (f : Frame) (part mask : Byte) (circuit : BitVec 16) (s : State) : Host.Outcome State Fault Refusal :=
  let c := circuit.toNat
  done (s.serveMask { op := 0x0703, change := true, len := 4 } f part mask (4095 < c)
    (dieAct 0x0703 3 c 1 fun x => x.circRelease part.toNat c))

/-- CIRC_READ (R199). -/
def execCircRead (f : Frame) (part die : Byte) (first count : BitVec 16) (s : State) : Host.Outcome State Fault Refusal :=
  let a := first.toNat
  let n := count.toNat
  done (s.serveDie { op := 0x0704, change := false, len := 8 } f part die (n = 0 || 254 < n || 4096 < a + n) fun d t =>
    (t, .ok, (List.range n).flatMap fun i =>
      let e := (t.die d).tab.circuit (a + i)
      if ccPart e = part.toNat then le 8 e.toNat ++ le 8 ((t.die d).tab.lease (a + i)).toNat else le 16 0))

/-! ### Congestion -/

/-- A threshold in bytes per lane lies in its range (Table 06-5). -/
def markOk (b : BitVec 32) : Bool := decide (4096 ≤ b.toNat) && decide (b.toNat ≤ 262144)

/-- `THROTTLE_THRESH` lies in its range (Table 06-5). -/
def throttleOk (b : BitVec 32) : Bool := decide (8192 ≤ b.toNat) && decide (b.toNat ≤ 524288)

/-- `MODE` is one that the virtual channel takes (R241, R476). -/
def congModeOk (vc mode : Byte) : Bool := decide (mode.toNat ≤ 3) && ((vc == 5) == (mode == 0))

/-- The 12 B of a die in the response of `cong.config`: its settings from the next boundary. -/
def Die.congRecord (x : Die) (p v : Nat) : List Byte :=
  let c := x.tab.congOf p v
  if x.on then [c.mode.setWidth 8, 0, 0, 0] ++ le 4 c.mark.toNat ++ le 4 c.throttle.toNat else le 12 0

/-- CONG_CONFIG (R241, R242, R256, R476): with `SET_MASK` 0 it is a read. -/
def execCongConfig (f : Frame) (part mask vc setMask mode : Byte) (mark throttle : BitVec 32) (s : State) :
    Host.Outcome State Fault Refusal :=
  let sel (i : Nat) : Bool := setMask.getLsbD i
  let change := sel 0 || sel 1 || sel 2
  let p := part.toNat
  let v := vc.toNat
  let bad := decide (7 < v) || (sel 0 && !congModeOk vc mode) || (sel 1 && !markOk mark) || (sel 2 && !throttleOk throttle)
  done (s.serveMaskWith { op := 0x0901, change := change, len := 16 } f part mask bad ()
    (fun d t =>
      let c := (t.die d).tab.congOf p v
      let c : Cong := { mode := if sel 0 then mode.setWidth 2 else c.mode, mark := if sel 1 then mark else c.mark,
                        throttle := if sel 2 then throttle else c.throttle }
      (if change then
        (t.modDie d fun x => x.modTab fun t => { t with cong := Map.put t.cong (8 * p + v) c }).traceDieWrite d 6 0x0901
          (8 * p + v) 1 .ok
       else t, .ok, ()))
    fun t _ => allDieIds.flatMap fun d => (t.die d).congRecord p v)

end Sys2Proof.Machine
end

