-- ==== Sys2Proof/Machine/LinkCmds.lean ====
section
/-! DEFINITION. The link commands (spec/12 Links). -/

namespace Sys2Proof.Machine

/-- Code of `LINK_STATE` (Table 12-6). -/
def LinkState.code : LinkState → Nat
  | .disabled => 0
  | .detect => 1
  | .train => 2
  | .activePw => 3
  | .active => 4
  | .switching => 5
  | .sweep => 6
  | .held => 7

/-- The 16 B record of a port (Table 12-6). -/
def Port.record (q : Port) : List Byte :=
  let flags : BitVec 8 := 0#2 ++ b1 q.farEp ++ q.cause ++ b1 q.fullRate ++ b1 q.isLeaving
  [BitVec.ofNat 8 q.state.code, flags, q.lanesByte, 0] ++
    le 2 ((List.range 4).foldl (fun n i => n + q.score i * 16 ^ i) 0) ++ le 2 q.delay.toNat ++ le 6 q.farSerial.toNat ++
    le 2 q.farId.toNat

/-- Serve a change on one port of one die: `bad` for a field out of range. -/
def State.servePort (s : State) (op : Nat) (f : Frame) (die port : Byte) (bad : Bool)
    (act : DieId → Nat → State → State × Status) : State :=
  s.serve { op := op, change := true, len := 4 } f fun t =>
    match dieOf die with
    | none => (t, .now .badField [])
    | some d =>
      if port.toNat > 69 || bad then (t, .now .badField [])
      else if (t.die d).on then let r := act d port.toNat t; (r.1, .now r.2 [])
      else (t, .now .dieOff [])

/-- LINK_STATUS (R142, Table 12-6). -/
def execLinkStatus (f : Frame) (die firstPort count : Byte) (s : State) : Host.Outcome State Fault Refusal :=
  done (s.serveRead { op := 0x0301, change := false, len := 4 } f fun t =>
    match dieOf die with
    | none => (.badField, [])
    | some d =>
      let a := firstPort.toNat
      let n := count.toNat
      if n = 0 || 72 < n || 72 < a + n then (.badField, [])
      else if (t.die d).on then
        (.ok, [die, firstPort, count, 0] ++ (List.range n).flatMap fun i => ((t.die d).port (a + i)).record)
      else (.dieOff, []))

/-- Mark a port leaving for `link.config`; a DISABLED port stays DISABLED (R439, R442). -/
def Port.leaveFor (q : Port) (dest : LinkState) : Port :=
  if q.state == .disabled then q else { q with leaveTo := some dest }

/-- LINK_CONFIG_HOLD (R439, R441). -/
def execLinkConfigHold (f : Frame) (die port : Byte) (s : State) : Host.Outcome State Fault Refusal :=
  done (s.servePort 0x0302 f die port false fun d p t =>
    (t.modDie d fun x => x.modPort p fun q => q.leaveFor .held, .ok))

/-- LINK_CONFIG_RELEASE (R440): to ACTIVE at the trained width, to ACTIVE_PW when not trained at 224 Gb/s, to DETECT when
not trained at all. -/
def execLinkConfigRelease (f : Frame) (die port : Byte) (s : State) : Host.Outcome State Fault Refusal :=
  done (s.servePort 0x0302 f die port false fun d p t =>
    let q := (t.die d).port p
    if q.state == .held && q.cause = 3 then
      let dest : LinkState := if q.lanes = 0 then .detect else if q.fullRate then .active else .activePw
      (t.modDie d fun x => x.modPort p fun q => { q with state := dest, cause := 0 }, .ok)
    else (t, .badField))

/-- LINK_CONFIG_DISABLE (R439, R441). -/
def execLinkConfigDisable (f : Frame) (die port : Byte) (s : State) : Host.Outcome State Fault Refusal :=
  done (s.servePort 0x0302 f die port false fun d p t =>
    (t.modDie d fun x => x.modPort p fun q => q.leaveFor .disabled, .ok))

/-- WIDEN and NARROW are accepted on this port (R442). -/
def Port.canRetrain (q : Port) : Bool := q.state == .active || (q.state == .held && q.fullRate)

/-- LINK_RETRAIN_WIDEN (R149, R442, R443). -/
def execLinkRetrainWiden (f : Frame) (die port : Byte) (s : State) : Host.Outcome State Fault Refusal :=
  done (s.servePort 0x0303 f die port false fun d p t =>
    let q := (t.die d).port p
    if !q.canRetrain then (t, .badField)
    else
      let u := t.modDie d fun x => x.modPort p fun q => { q with retrain := true, widen := q.width != 4 }
      (if q.width = 4 then u.reportRetrain d p false else u, .accepted))

/-- LINK_RETRAIN_FULL (R150, R153, R442): the link fails with the cause of row 6 unless it has failed or is DISABLED, and
returns to DETECT. -/
def execLinkRetrainFull (f : Frame) (die port : Byte) (s : State) : Host.Outcome State Fault Refusal :=
  done (s.servePort 0x0303 f die port false fun d p t =>
    let q := (t.die d).port p
    let t := if q.up then t.failLink d p 6 else t
    let powered := (t.die d).laneGroups.getLsbD (p / 4)
    let off := t.offCause d p
    (t.modDie d fun x => x.modPort p fun q =>
      { q with state := if powered then .detect else .disabled, cause := if powered then 0 else off, retrain := true }, .accepted))

/-- LINK_RETRAIN_NARROW (R144, R442); a bridge port runs at x4 only (R89). -/
def execLinkRetrainNarrow (f : Frame) (die port lanes : Byte) (s : State) : Host.Outcome State Fault Refusal :=
  done (s.servePort 0x0303 f die port false fun d p t =>
    let q := (t.die d).port p
    let m : BitVec 4 := lanes.setWidth 4
    let n := popCount m
    if 64 ≤ p || !q.canRetrain || lanes.toNat > 15 || !(n == 1 || n == 2) || m &&& q.lanes ≠ m then (t, .badField)
    else
      ((t.modDie d fun x => x.modPort p fun q => { q with retrain := true }).requestSwitch d p m false 3 false, .accepted))

/-- A port whose `CABLED` bit may be cleared (R444). -/
def Port.idle (q : Port) : Bool := match q.state with | .disabled | .held | .detect => true | _ => false

/-- LINK_PORTMAP (R38, R444, R538). -/
def execLinkPortmap (f : Frame) (die : Byte) (cabled : BitVec 64) (s : State) : Host.Outcome State Fault Refusal :=
  done (s.serve { op := 0x0304, change := true, len := 16 } f fun t =>
    match dieOf die with
    | none => (t, .now .badField [])
    | some d =>
      let old := t.cabled d
      let bad := (List.range 64).any fun p => old.getLsbD p && !cabled.getLsbD p && !((t.die d).port p).idle
      if bad then (t, .now .portInService [])
      else
        let t := { t with boot := { t.boot with cabled := Map.put t.boot.cabled d.val cabled } }
        ((t.flashOp [t.mapRecord]).planPower, .now .ok []))

/-- Points of one axis of a sweep grid; none when its fields are out of range (Table 12-7). -/
def axisPoints (lo hi step : Byte) : Option Nat :=
  let a := lo.toInt
  let b := hi.toInt
  if -32 ≤ a ∧ a ≤ b ∧ b ≤ 31 ∧ 1 ≤ step.toNat ∧ step.toNat ≤ 63 then some ((b - a).toNat / step.toNat + 1) else none

/-- Points of a sweep per lane; none when a field is out of range. -/
def sweepPoints (q : SweepReq) : Option Nat :=
  match axisPoints q.phaseMin q.phaseMax q.phaseStep, axisPoints q.voffMin q.voffMax q.voffStep with
  | some a, some b =>
    if q.lanes = 0 || q.lanes.toNat > 15 || q.side.toNat > 1 || q.dwell = 0 then none
    else some (a * b)
  | _, _ => none

/-- Phase and voltage offset of a point: points are numbered phase-major. -/
def sweepOffsets (q : SweepReq) (i : Nat) : Int × Int :=
  let n := ((q.voffMax.toInt - q.voffMin.toInt).toNat) / q.voffStep.toNat + 1
  (q.phaseMin.toInt + (i / n) * q.phaseStep.toNat, q.voffMin.toInt + (i % n) * q.voffStep.toNat)

/-- Lanes of a sweep in order: with all four requested, lanes 1 to 3 first and then lane 0 (R170). -/
def sweepLanes (m : BitVec 4) : List Nat :=
  if m = 15 then [1, 2, 3, 0] else (List.range 4).filter fun i => m.getLsbD i

/-- Carrier of a sweep: the lowest lane not under sweep; lane 0 while lanes 1 to 3 of a full sweep run, then lane 1 (R170). -/
def sweepCarrier (m : BitVec 4) (lane : Nat) : Nat :=
  if m = 15 then (if lane = 0 then 1 else 0)
  else ((List.range 4).find? fun i => !m.getLsbD i).getD 0

/-- A SWEEP word of the near end for a point (Table 04-10). -/
def sweepWordOf (q : SweepReq) (op : BitVec 4) (lane point : Nat) : CtlWord :=
  let o := sweepOffsets q point
  sweepWord op (BitVec.ofNat 2 lane) (q.side == 1) q.sweepId (BitVec.ofInt 6 o.1) (BitVec.ofInt 6 o.2) q.dwell 0
    (BitVec.ofNat 12 point)

/-- Begin a sweep from this end: the carrier is set by a WIDTH_REQ with `REASON` 4, START is sent, and the oldest of the four
kept sweeps gives way (R170, R172, R446). -/
def State.beginSweep (s : State) (d : DieId) (p : Nat) (q : SweepReq) : State :=
  let m : BitVec 4 := q.lanes.setWidth 4
  let lane := (sweepLanes m).headD 0
  let s := { s with sweeps := (({ req := q } : SweepRec) :: s.sweeps).take 4 }
  let s := s.modDie d fun x => x.modPort p fun r =>
    { r with state := .sweep, near := some { req := q, lane := BitVec.ofNat 2 lane, point := 0, lastSent := x.now, since := x.now } }
  (s.requestSwitch d p (laneMask [sweepCarrier m lane]) false 4 false).emit (.word d p (sweepWordOf q 1 lane 0))

/-- LINK_SWEEP (R169, R170, R445, R446). -/
def execLinkSweep (f : Frame) (q : SweepReq) (s : State) : Host.Outcome State Fault Refusal :=
  done (s.serve { op := 0x0310, change := true, len := 16 } f fun t =>
    match dieOf q.die, sweepPoints q with
    | some d, some n =>
      if q.port.toNat > 69 || 4096 < n then (t, .now .badField [])
      else if !(t.die d).on then (t, .now .dieOff [])
      else
        let r := (t.die d).port q.port.toNat
        if r.near.isSome || r.far.isSome then (t, .now .busy [])
        else if !(r.state == .held && r.cause = 3) then (t, .now .portInService [])
        else (t.beginSweep d q.port.toNat q, .now .accepted [])
    | _, _ => (t, .now .badField []))

/-- LINK_SWEEP_RESULT (R173, R430, R446). Of a sweep that still runs it answers RESULT 0 with the points done so far (DESIGN CHOICE, log
entry 117). -/
def execLinkSweepResult (f : Frame) (die port sweepId lane : Byte) (firstPoint count : BitVec 16) (s : State) :
    Host.Outcome State Fault Refusal :=
  done (s.serveRead { op := 0x0311, change := false, len := 8 } f fun t =>
    match t.sweeps.find? fun r => r.req.die == die && r.req.port == port && r.req.sweepId == sweepId with
    | none => (.badField, [])
    | some r =>
      let n := count.toNat
      if lane.toNat > 3 || n = 0 || 1024 < n || 4096 < firstPoint.toNat + n then (.badField, [])
      else
        let q := r.req
        (.ok, [r.result, 0] ++ le 2 r.done ++
          [q.die, q.port, q.lanes, q.side, q.sweepId, q.phaseMin, q.phaseMax, q.phaseStep, q.voffMin, q.voffMax, q.voffStep, 0] ++
          (List.range n).flatMap fun i => le 2 (Map.lookD r.counts (4096 * lane.toNat + firstPoint.toNat + i) 0).toNat))

end Sys2Proof.Machine
end

