-- ==== Sys2Proof/Machine/MspCmds.lean ====
section
/-! DEFINITION. The Manager Sideband Port (spec/14 R516 to R534) and the frames it carries (spec/11 Table 11-3). -/

namespace Sys2Proof.Machine

/-! ### Frames -/

/-- An FMP frame (Table 11-3): `head` is bytes 0 to 27. -/
def frameBytes (head payload : List Byte) : List Byte := head ++ le 4 (crc32c (head ++ payload)) ++ payload

/-- The response frame of a slot (Table 11-3). -/
def RespCopy.frame (r : RespCopy) (slot : Nat) : List Byte :=
  frameBytes ([0x46, 0x4D, 3, 2] ++ le 2 r.op.toNat ++ le 2 r.tag.toNat ++ [BitVec.ofNat 8 slot, r.part, 0xFF, 0] ++
    le 2 r.payload.length ++ le 2 r.status.code ++ le 4 r.epoch.toNat ++ le 4 0 ++ le 2 0xFFFF ++ le 2 0) r.payload

/-- An event frame of 64 B (R415, R492). -/
def EvRec.frame (e : EvRec) (epoch : BitVec 32) : List Byte :=
  frameBytes ([0x46, 0x4D, 3, 3] ++ le 2 e.ev.op.toNat ++ le 2 0 ++ [0, e.ev.part, 0xFF, 0] ++ le 2 32 ++ le 2 0 ++
    le 4 epoch.toNat ++ le 4 e.seq.toNat ++ le 2 0xFFFF ++ le 2 0) e.ev.bytes

/-! ### An instance -/

/-- Instance MSP-A or MSP-B. -/
def State.msp (s : State) (b : Bool) : Msp := if b then s.mspB else s.mspA

/-- The tray with an instance replaced. -/
def State.setMsp (s : State) (b : Bool) (m : Msp) : State := if b then { s with mspB := m } else { s with mspA := m }

/-- Channel number of an instance (Table 11-2). -/
def mspChan (b : Bool) : Nat := if b then 3 else 2

/-- Code of a slot state (Table 14-8). -/
def SlotState.code : SlotState → Nat
  | .empty => 0
  | .written => 1
  | .busy => 2
  | .done => 3

/-- State of a slot. -/
def Msp.slot (m : Msp) (n : Nat) : SlotState := Map.lookD m.slots n .empty

/-- The reply body, padded or cut to `MRLEN` bytes (R523, Table 14-8). -/
def MspReply.body (r : MspReply) (n : Nat) : List Byte :=
  padTo n ([r.rop, r.rslot, r.rcode, r.rstate] ++ le 2 r.data.length ++ le 2 r.total ++ r.data)

/-- `MSPx_ALERT_N` is asserted (R531). -/
def State.mspAlert (s : State) (b : Bool) : Bool :=
  let m := s.msp b
  (Map.lookD s.evs.queues (mspChan b) []).any (fun e => !e.returned) ||
    m.slots.any fun e => e.2 == .done && !Map.lookD m.taken e.1 false

/-- What the reply segment carries and whether the whole of it delivers the pending reply (R521, R524, R525). -/
def Msp.segment (m : Msp) (n : Nat) : List Byte × Bool :=
  if m.repeat_ then
    if m.ready then (m.reply.body n ++ [0, 0, 0, 0], true)
    else (List.replicate n 0#8 ++ [0, 1] ++ le 2 (n / 4), false)
  else if m.ready then (0x00#8 :: m.reply.body n, true)
  else (0x01#8 :: List.replicate n 0#8, false)

/-- The header of a frame is sound (R520). -/
def xferSound (x : MspXfer) : Bool :=
  x.hdrOk && decide (x.mlen.toNat ≤ 4100) && decide (8 ≤ x.mrlen.toNat ∧ x.mrlen.toNat ≤ 4104) && x.mrlen.toNat % 4 == 0

/-- What an operation answers: `RCODE`, `RTOTAL` and the data. -/
structure MspAnswer where
  code : Byte
  total : Nat := 0
  data : List Byte := []
deriving DecidableEq, Repr

/-- Run one transaction (R518 to R525, R528, R534): the reply pending goes out, and a frame that is accepted leaves its own reply
pending. -/
def State.mspRun (s : State) (x : MspXfer) (mop : Byte) (asleepOk : Bool) (act : State → State × MspAnswer) : State :=
  let m := s.msp x.b
  let port := if x.b then 1 else 0
  if !xferSound x then (s.emit (.mspSilent x.b)).countFc (ctrKey 0x22 port 0 0 0)
  else
    let seg := m.segment x.mrlen.toNat
    let s := s.emit (.msp x.b m.lanes.toNat ((seg.1.take x.clocked).flatMap (xfersOf m.lanes.toNat)))
    let s := if seg.2 then s else s.countFc (ctrKey 0x22 port 0 0 (if m.repeat_ then 2 else 1))
    if !seg.2 || x.clocked < seg.1.length then s
    else
      let r : State × MspAnswer :=
        if x.mlen ≠ 0 && !x.payOk then (s, { code := 1 })
        else if s.boot.stage == .alwaysOn && !asleepOk then (s, { code := 7 })
        else act s
      let m := r.1.msp x.b
      let reply : MspReply :=
        { rop := mop, rslot := x.mslot, rcode := r.2.code, rstate := BitVec.ofNat 8 (m.slot (x.mslot.toNat % 16)).code,
          total := r.2.total, data := r.2.data }
      r.1.setMsp x.b { m with reply := reply, ready := false }

/-- MSP_POLL (R521 to R525). -/
def execMspPoll (x : MspXfer) (s : State) : Host.Outcome State Fault Refusal :=
  done (s.fresh.mspRun x 0x00 true fun t => (t, { code := 0 }))

/-- MSP_WRITE (R529). -/
def execMspWrite (x : MspXfer) (offset : BitVec 16) (data : List Byte) (s : State) : Host.Outcome State Fault Refusal :=
  let k := x.mslot.toNat
  done (s.fresh.mspRun x 0x01 false fun t =>
    let m := t.msp x.b
    if k < 16 && m.slot k == .busy then (t, { code := 3 })
    else if 15 < k || 4096 < offset.toNat + data.length then (t, { code := 4 })
    else
      (t.setMsp x.b { m with buf := Mem.writes 0 m.buf (4096 * k + offset.toNat) data, slots := Map.put m.slots k .written },
       { code := 0 }))

/-- MSP_DOORBELL (R394, R529). -/
def execMspDoorbell (x : MspXfer) (s : State) : Host.Outcome State Fault Refusal :=
  let k := x.mslot.toNat
  done (s.fresh.mspRun x 0x02 false fun t =>
    let m := t.msp x.b
    if k < 16 && m.slot k == .written then
      (t.setMsp x.b { m with slots := Map.put m.slots k .busy, taken := Map.rem m.taken k }, { code := 0 })
    else (t, { code := 4 }))

/-- MSP_READ_RESP (R526, R529, Table 14-9): the response stays readable until the next DOORBELL of its slot. -/
def execMspReadResp (x : MspXfer) (offset : BitVec 16) (s : State) : Host.Outcome State Fault Refusal :=
  let k := x.mslot.toNat
  done (s.fresh.mspRun x 0x03 false fun t =>
    let m := t.msp x.b
    match Map.look t.mbx.copies (16 * mspChan x.b + k) with
    | some r =>
      if k < 16 && m.slot k != .busy then
        let f := r.frame k
        let m := if offset = 0 then { m with taken := Map.put m.taken k true } else m
        (t.setMsp x.b m, { code := 0, total := f.length, data := (f.drop offset.toNat).take (x.mrlen.toNat - 8) })
      else (t, { code := 5 })
    | none => (t, { code := 5 }))

/-- MSP_READ_EVENT (R531, R532, Table 14-9). -/
def execMspReadEvent (x : MspXfer) (evSeq : BitVec 32) (s : State) : Host.Outcome State Fault Refusal :=
  done (s.fresh.mspRun x 0x04 false fun t =>
    let c := mspChan x.b
    let q := Map.lookD t.evs.queues c []
    let want := if evSeq = 0xFFFFFFFF then q.find? fun e => !e.returned else q.find? fun e => e.seq == evSeq
    match want with
    | some e =>
      let q := q.map fun g => if g.seq == e.seq then { g with returned := true } else g
      ({ t with evs := { t.evs with queues := Map.put t.evs.queues c q } },
       { code := 0, total := 64, data := (e.frame t.tok.epoch).take (x.mrlen.toNat - 8) })
    | none => (t, { code := 6 }))

/-- MSP_SET_LINK (R517, R530, R641): the new settings hold from the next transaction. -/
def execMspSetLink (x : MspXfer) (lanes mode : Byte) (s : State) : Host.Outcome State Fault Refusal :=
  done (s.fresh.mspRun x 0x05 true fun t =>
    let m := t.msp x.b
    if (lanes = 2 || lanes = 4 || lanes = 8) && mode.toNat ≤ 1 then
      (t.setMsp x.b { m with lanes := lanes, repeat_ := mode == 1 }, { code := 0 })
    else (t, { code := 4 }))

/-- The 16 B of STATUS (Table 14-9). -/
def State.mspStatusData (s : State) (b : Bool) : List Byte :=
  let m := s.msp b
  let c := mspChan b
  [m.lanes, if m.repeat_ then 1 else 0, s.pow.state.setWidth 8, 0] ++
    le 4 ((List.range 16).foldl (fun n i => n + (m.slot i).code * 4 ^ i) 0) ++
    le 2 (Map.lookD s.evs.queues c []).length ++ le 2 0 ++ le 4 (Map.lookD s.evs.next c 0 - 1).toNat

/-- MSP_STATUS (R534, Table 14-9). -/
def execMspStatus (x : MspXfer) (s : State) : Host.Outcome State Fault Refusal :=
  done (s.fresh.mspRun x 0x06 true fun t => (t, { code := 0, total := 16, data := t.mspStatusData x.b }))

/-- MSP_REPLY_READY (R526): the whole reply is in the output buffer. -/
def execMspReplyReady (b : Bool) (s : State) : Host.Outcome State Fault Refusal :=
  let s := s.fresh
  done (s.setMsp b { s.msp b with ready := true })

end Sys2Proof.Machine
end

