-- ==== Sys2Proof/Machine/RelayCmds.lean ====
section
/-! DEFINITION. Relayed requests and the IPv6 services of the management Ethernet ports (spec/11 R390, R418 to R421). -/

namespace Sys2Proof.Machine

/-- An up port of die `d` in service towards the spine tray of spine index `i` (R15, R420). -/
def State.relayUpPort (s : State) (d : DieId) (i : Nat) : Option Nat :=
  ((List.range 4).map fun k => 32 + 4 * i + k).find? fun p => ((s.die d).port p).inService

/-- A free slot of the in-band channel of a die (R419). -/
def State.freeSlot (s : State) (d : DieId) : Option Nat :=
  ((List.range 16).map fun i => 16 * (4 + d.val) + i).find? fun k => (Map.look s.mbx.slots k).isNone

/-- FMP_RELAY (R420): the request leaves the die of its arrival for the spine tray that `ROUTE` names. -/
def execFmpRelay (f : Frame) (opcode : BitVec 16) (payload : List Byte) (s : State) : Host.Outcome State Fault Refusal :=
  let s := s.fresh
  let op := opcode.toNat
  done (if !s.listening then s
    else if !f.magicOk then s.countFc (ctrKey 0x20 0x7F 0 0 0)
    else if !f.crcOk then s.countFc (ctrKey 0x20 0x7F 0 0 1)
    else if f.version ≠ 3 then s.answer f op .badVersion []
    else match f.chan with
      | .ib d =>
        match s.freeSlot d with
        | none => s.answer f op .busy []
        | some k =>
          let i := f.route.toNat - 0x80
          match (if s.isLeaf && decide (0x80 ≤ f.route.toNat) && decide (i < 8) then s.relayUpPort d i else none) with
          | none => s.answer f op .badRoute []
          | some p =>
            let o := s.originOf f d
            let r : SlotReq := { op := opcode, tag := f.tag, port := f.port.val, origin := o }
            let m : Mail :=
              { d := d, port := p, type := 1, tag := some f.tag,
                bytes := { kind := 1, op := opcode, tag := f.tag, part := f.hpart, epoch := f.tokenEpoch, seq := f.cmdSeq, origin := o
                           : FrameHead }.bytes payload }
            (({ s with mbx := { s.mbx with slots := Map.put s.mbx.slots k r,
                                           relayed := Map.put s.mbx.relayed f.tag.toNat (d, f.port.val, o) } }).emit
              (.relay d p opcode f.tag o 0 payload)).mail m
      | _ => s.answer f op .badRoute [])

/-- FMP_RELAY_RESPONSE (R420): the response goes back to the requester by the reverse hops. -/
def execFmpRelayResponse (d : DieId) (_p : PortId) (tag status : BitVec 16) (payload : List Byte) (s : State) :
    Host.Outcome State Fault Refusal :=
  let s := s.fresh
  done (match Map.look s.mbx.relayed tag.toNat with
    | none => s
    | some (e, port, o) =>
      if e ≠ d then s
      else
        let mine (k : Nat) (r : SlotReq) : Bool := k / 16 == 4 + d.val && r.tag == tag && r.port == port
        let op := match s.mbx.slots.find? fun k => mine k.1 k.2 with | some k => k.2.op | none => 0
        let m : Mail :=
          { d := d, port := port, type := 2, tag := some tag,
            bytes := { kind := 2, op := op, tag := tag, status := status.toNat, epoch := s.tok.epoch, seq := Config.mailSeq op tag,
                       origin := o : FrameHead }.bytes payload }
        (({ s with mbx := { s.mbx with relayed := Map.rem s.mbx.relayed tag.toNat,
                                       slots := Map.keep s.mbx.slots fun k r => !mine k r } }).emit
          (.relay d port op tag o status payload)).mail m)

/-- The link-local address of a management Ethernet port, formed from its MAC address (R390); most significant byte first. -/
def linkLocal (eth1 : Bool) : BitVec 128 :=
  let m := Config.mac eth1
  let byte (i : Nat) : BitVec 8 := fld m (8 * i) 8
  0xFE80#16 ++ 0#48 ++ (byte 0 ^^^ 2) ++ byte 1 ++ byte 2 ++ 0xFFFE#16 ++ byte 3 ++ byte 4 ++ byte 5

/-- ICMPV6_ECHO (R390). -/
def execIcmpv6Echo (eth1 : Bool) (src : BitVec 128) (ident seqNo : BitVec 16) (data : List Byte) (s : State) :
    Host.Outcome State Fault Refusal :=
  let s := s.fresh
  done (if s.listening && !s.boot.romOnly then s.emit (.icmp eth1 src ident seqNo data) else s)

/-- NEIGHBOR_DISCOVERY (R390): a solicitation for the port's own address is answered. -/
def execNeighborDiscovery (eth1 : Bool) (src target : BitVec 128) (s : State) : Host.Outcome State Fault Refusal :=
  let s := s.fresh
  done (if s.listening && !s.boot.romOnly && target == linkLocal eth1 then s.emit (.neighbor eth1 src target) else s)

end Sys2Proof.Machine
end

