-- ==== Sys2Proof/Machine/WidthOps.lean ====
section
/-! DEFINITION. The lanes that a port has locked at 224 Gb/s and the switches that they call for: background training (spec/04 R143,
R144), widening by command (R149), and the TRAIN_ID word that tells the far end of them (R23, R29, R141, Table 04-5). -/

namespace Sys2Proof.Machine

/-- Lanes locked in both directions (R143). -/
def Port.both (q : Port) : BitVec 4 := q.locked &&& q.farLocked

/-- Position that a die announces: leaf index or spine die number (Table 04-5). -/
def State.position (s : State) (d : DieId) : Nat := if s.isSpine then s.spineDie d else s.leafIndex d

/-- The TRAIN_ID word of a port (R23, R29, Table 04-5): its locked lanes at 106 Gb/s in TRAIN, at 224 Gb/s after it. -/
def State.trainIdOf (s : State) (d : DieId) (p : Nat) : CtlWord :=
  let q := (s.die d).port p
  trainWord (BitVec.ofNat 2 s.plane) s.isSpine (BitVec.ofNat 2 d.val) (BitVec.ofNat 6 (s.position d)) (BitVec.ofNat 7 p)
    (if s.isDown p then s.endpointId d p else 0) (s.fuse.bits.extractLsb' 0 48) q.locked (q.state != .train)

/-- Background training lets the port widen: its lanes locked at 224 Gb/s in both directions give the switch of R143; none when no switch
is due. In T1 an external port goes to x1 only (R585). -/
def Port.raiseTo (q : Port) (narrow : Bool) : Option (BitVec 4) :=
  let locked := (bitsOf q.both).filter fun i => !bit q.lost i && (q.fullRate || !bit q.lanes i)
  if !q.training then none
  else if !q.fullRate then
    (if narrow then (if 1 ≤ locked.length then some (laneMask (locked.take 1)) else none)
     else if 2 ≤ locked.length then some (laneMask (locked.take 2)) else none)
  else if locked.length = 4 && q.width ≠ 4 && !narrow then some 15 else none

/-- The wider switch of `link.retrain` WIDEN, over the lanes active or locked in both directions (R149). -/
def Port.widenTo (q : Port) : Option (BitVec 4) :=
  let m := q.chooseLanes fun i => bit q.lanes i || bit q.both i
  if q.widen && q.width < popCount m then some m else none

/-- Request the switch that the locked lanes call for, unless one is under way (R143, R144, R149). -/
def State.rewiden (s : State) (d : DieId) (p : Nat) : State :=
  let q := (s.die d).port p
  if q.sw.isSome || !q.marks || q.state == .sweep then s
  else match q.raiseTo (s.aim == 1 && decide (p < 64)), q.widenTo with
    | some m, _ => s.requestSwitch d p m false 1 false
    | none, some m => s.requestSwitch d p m false 2 false
    | none, none => s

end Sys2Proof.Machine
end

