-- ==== Sys2Proof/Machine/RetryCmds.lean ====
section
/-! DEFINITION. Received link control words and link-level retry: delay probes (spec/04 R133), FLOW words (spec/06 R225 to R229), ACK
and NAK, codewords and their blocks, uncorrectable codewords, STOMP and timeouts (spec/04 R121 to R140, R150, R151; spec/03 R115). -/

namespace Sys2Proof.Machine

/-- Control words travel on the link: it is trained, or it is training (Table 04-4). -/
def Port.linked (q : Port) : Bool := q.marks || q.state == .train

/-- A switch is under way (R151). -/
def Port.inSwitch (q : Port) : Bool := q.sw.isSome || q.state == .switching

/-- Receive a control word: a word whose `MCRC` fails or whose `CW_TYPE` is not that of its kind is discarded and counted
(R132). -/
def State.onWord (s0 : State) (d : DieId) (p : PortId) (w : CtlWord) (type : Nat) (act : State → State) : State :=
  let s := s0.fresh
  if !(s.die d).on || !((s.die d).port p.val).linked then s
  else if mcrcOk w && cwType w == type then act s
  else s.modDie d fun x => x.count (cPort 2 0 p.val)

/-! ### Delay probes -/

/-- The die measures its receive margins: a value that the manual does not give. -/
def State.measure (s : State) (d : DieId) (p : Nat) : State :=
  { (s.modDie d fun x => x.modPort p fun q => { q with marginNear := Config.margin s.free }) with free := s.free + 1 }

/-- A probe is due on a port: while it trains, and after that every 65,536 ticks (R133). -/
def Die.probeDue (x : Die) (p : Nat) : Bool :=
  let q := x.port p
  q.linked && (q.state == .train || (match q.probed with | some t => !within x.now t 65536 | none => true))

/-- DELAY_PROBE_PERIODIC (R63, R133). -/
def execDelayProbePeriodic (d : DieId) (p : PortId) (time : BitVec 48) (s : State) : Host.Outcome State Fault Refusal :=
  let s := s.fresh
  done (if (s.die d).on && (s.die d).probeDue p.val then
      let s := (s.measure d p.val).modDie d fun x => x.modPort p.val fun q => { q with probed := some x.now }
      s.emit (.word d p.val (probeWord false time 0 ((s.die d).port p.val).marginNear))
    else s)

/-- DELAY_PROBE (R133): the reply echoes the probe's time. -/
def execDelayProbe (d : DieId) (p : PortId) (w : CtlWord) (turnaround : BitVec 32) (s : State) :
    Host.Outcome State Fault Refusal :=
  done (s.onWord d p w 0xAB fun s =>
    let s := (s.measure d p.val).modDie d fun x => x.modPort p.val fun q => { q with marginFar := fld w 96 16 }
    (s.rewiden d p.val).emit (.word d p.val (probeWord true (fld w 16 48) turnaround ((s.die d).port p.val).marginNear)))

/-- One-way delay of a probe's reply, in 1/16 ns (R133). -/
def probeDelay (w : CtlWord) (arrival : BitVec 48) : Nat := (arrival - fld w 16 48 - (fld w 64 32).setWidth 48).toNat / 2

/-- DELAY_PROBE_REPLY (R63, R133, R146). -/
def execDelayProbeReply (d : DieId) (p : PortId) (w : CtlWord) (arrival : BitVec 48) (s : State) :
    Host.Outcome State Fault Refusal :=
  done (s.onWord d p w 0xAB fun s => (s.modDie d fun x => x.modPort p.val fun q =>
    { q with delay := BitVec.ofNat 16 (min (probeDelay w arrival) 65535), marginFar := fld w 96 16, measured := true }).rewiden d p.val)

/-! ### Permission -/

/-- Entry `i` of a FLOW word (Table 06-1). -/
def flEntry (w : CtlWord) (i : Nat) : BitVec 21 := fld w (8 + 21 * i) 21

/-- The eight bits of a partition in a map of (partition, VC). -/
def setPart (m : BitVec 128) (part : Nat) (v : BitVec 8) : BitVec 128 := setFld m (8 * part) 8 v

/-- A port takes one FLOW entry: XOFF and WANT of a partition, or of the pool, which it ignores from an endpoint (R225, R228,
R229, Table 06-2). -/
def Port.takeFlow (q : Port) (e : BitVec 21) : Port :=
  let part := (fld e 0 4).toNat
  if bit e 4 then (if q.farEp then q else { q with txPool := !bit e 5, farWantPool := bit e 13 })
  else { q with txXon := setPart q.txXon part (~~~(fld e 5 8)), farWant := setPart q.farWant part (fld e 13 8) }

/-- FLOW_WORD (R225 to R230): the permission and the WANT bits of each of its four entries. -/
def execFlowWord (d : DieId) (p : PortId) (w : CtlWord) (s : State) : Host.Outcome State Fault Refusal :=
  done (s.onWord d p w 0xA3 fun s => s.modDie d fun x => x.modPort p.val fun q =>
    (List.range 4).foldl (fun (q : Port) i => q.takeFlow (flEntry w i)) q)

/-! ### Retry -/

/-- Sequence number of an ACK or NAK (Table 04-3). -/
def cwSeq (w : CtlWord) : BitVec 16 := fld w 8 16

/-- ACK (R140): what it releases makes room for blocks that wait. -/
def execAck (d : DieId) (p : PortId) (w : CtlWord) (s : State) : Host.Outcome State Fault Refusal :=
  done (s.onWord d p w 0xA5 fun s => (s.modDie d fun x => x.modPort p.val fun q => q.release x.now (cwSeq w)).pump d p.val)

/-- NAK (R139, Table 04-6 row 3, R151). -/
def execNak (d : DieId) (p : PortId) (w : CtlWord) (s : State) : Host.Outcome State Fault Refusal :=
  done (s.onWord d p w 0xA6 fun s =>
    let q := (s.die d).port p.val
    let n := if q.inSwitch then 0 else if q.nakCount ≠ 0 && q.nakSeq == cwSeq w then q.nakCount + 1 else 1
    let s := s.modDie d fun x => x.modPort p.val fun q => { q with nakSeq := cwSeq w, nakCount := n }
    if 16 ≤ n then s.failLink d p.val 3 else s.replay d p.val (cwSeq w))

/-! ### Received blocks -/

/-- The header of the packet in progress on a port, once the die has it (R128). -/
def Port.header (q : Port) : Option (BitVec 256) :=
  if 32 ≤ q.rxStream.length then some (BitVec.ofNat 256 (leNat (q.rxStream.take 32))) else none

/-- A packet that was going cut-through ends early on its egress port: what has come of it goes out, and STOMP ends it (R115). -/
def State.stompOut (s : State) (d : DieId) (p : Nat) : State :=
  let q := (s.die d).port p
  match q.through, q.header with
  | some e, some w =>
    let bs := packetBlocks { (s.stamp d p (Hdr.ofWord w)) with len := BitVec.ofNat 13 (q.rxStream.length - 32) } (q.rxStream.drop 32)
    let s := s.modDie d fun x => (x.modPort p fun q => { q with through := none }).modPort e fun q => { q with wait := q.wait ++ bs }
    (s.pump d e).emit (.word d e stompWord)
  | _, _ => s

/-- STOMP (R115, R132, Table 04-2): the packet in progress ends and is discarded, here and where it was going cut-through. -/
def execStomp (q : DiePort) (w : CtlWord) (s : State) : Host.Outcome State Fault Refusal :=
  let (d, p) := q
  done (s.onWord d p w 0xA7 fun s =>
    (s.stompOut d p.val).modDie d fun x => x.modPort p.val fun q => { q with rxStream := [], through := none })

/-- What is left of a packet byte stream once its whole packets are taken out (R128). -/
def leftover : Nat → List Byte → List Byte
  | 0, bs => bs
  | n + 1, bs =>
    let len := (fld (BitVec.ofNat 256 (leNat (bs.take 32))) 130 13).toNat
    if bs.length < 32 + len || bs.length < 32 then bs else leftover n (bs.drop (32 + len))

/-- Fill words at the end of a data block by the first word of the block that follows (R129). -/
def fillOf (w : Option CtlWord) : Nat :=
  match w with
  | some w => if mcrcOk w && cwType w == 0xA4 && decide ((fld w 8 5).toNat ≤ 7) then (fld w 8 5).toNat else 0
  | none => 0

/-- The first word of the block after block `i` of a codeword, where that is a control block. -/
def nextWord (bs : List Block) (i : Nat) (after : Option CtlWord) : Option CtlWord :=
  match bs[i + 1]? with
  | some (.control u _) => some u
  | some (.data _) => none
  | none => after

/-- The egress port on which the packet in progress on a port goes cut-through: that on which its header leaves at once (R111). -/
def State.throughPort (s : State) (d : DieId) (p : PortId) : Option Nat :=
  match ((s.die d).port p.val).header with
  | some w =>
    let len := (Hdr.ofWord w).len.toNat
    (s.arrive d p w (List.replicate len 0) (s.die d).clock).out.findSome? fun o =>
      match o with | .packet _ e _ _ => some e | _ => none
  | none => none

/-- A port accepts a data block in sequence: its packet bytes join the stream, and every 64th block is acknowledged (R128, R136, R137).
Where a new packet's header has come, the die settles whether it goes cut-through (R111). -/
def State.takeBlock (s : State) (d : DieId) (p : PortId) (b : BitVec 256) (fill : Nat) : State :=
  let q := (s.die d).port p.val
  let n := q.rxUnacked + 1
  let all := q.rxStream ++ (le 32 b.toNat).take (32 - 4 * fill)
  let rest := leftover 2 all
  let fresh := decide (rest.length < all.length) || q.rxStream.length < 32
  let s := s.modDie d fun x => x.modPort p.val fun q =>
    { q with rxNext := q.rxNext + 1, rxUnacked := if n = 64 then 0 else n, rxStream := rest,
             through := if fresh then none else q.through }
  let t := if fresh then s.throughPort d p else q.through
  let s := s.modDie d fun x => x.modPort p.val fun q => { q with through := t }
  if n = 64 then s.emit (.word d p.val (ackWord (q.rxNext + 1))) else s

/-- A codeword of an external link came with symbol errors that the code corrects (R121). -/
def Port.corrected (q : Port) (p : Nat) (l : Line) (bs : List Block) : Bool :=
  match l with
  | .code levels =>
    let lane (i : Nat) : List (BitVec 2) :=
      let j := if bit q.laneMap 4 then 3 - i else i
      (levels.getD j []).map fun v => if bit q.laneMap j then 3 - v else v
    decide (p < 64) && (bitsOf q.lanes).map lane != codewordLevels q.width bs
  | .frame _ => false

/-- DATA_BLOCK (R121 to R131, R136, R137): block `pos` of a codeword that decodes. A codeword that needed correction is counted with its
first data block. -/
def execDataBlock (q : DiePort) (seq : BitVec 16) (l : Line) (pos : Fin 20) (after : Option CtlWord) (s : State) :
    Host.Outcome State Fault Refusal :=
  let (d, p) := q
  let s := s.fresh
  let q := (s.die d).port p.val
  done (if !(s.die d).on || !q.carries then s
    else match q.receive p.val l with
      | none => s
      | some bs =>
        match bs[pos.val]? with
        | some (.data b) =>
          let first := (bs.take pos.val).all fun c => match c with | .data _ => false | .control _ _ => true
          let s := if first && q.corrected p.val l bs then s.modDie d fun x => x.count (cPort 2 4 p.val) else s
          if q.rxNext = seq then s.takeBlock d p b (fillOf (nextWord bs pos.val after)) else s
        | _ => s)

/-- CODEWORD_UNCORRECTABLE (R115, R121, R130, R136, R138, Table 04-6 row 3, R151): a codeword or bridge frame that does not decode. The
packet in progress ends where it was going cut-through. The receiver sends a NAK of the next expected block, and no second for the same
block within 1 us. -/
def execCodewordUncorrectable (q : DiePort) (l : Line) (s : State) : Host.Outcome State Fault Refusal :=
  let (d, p) := q
  let s := s.fresh
  let x := s.die d
  let q := x.port p.val
  done (if !x.on || !q.linked || (q.receive p.val l).isSome then s
    else
      let s := s.modDie d fun x => x.count (cPort 2 5 p.val)
      let s := if q.through.isSome then (s.modDie d fun x => x.count (cPort 3 5 p.val)).stompOut d p.val else s
      let same := match q.nakSent with | some (b, _) => b == q.rxNext | none => false
      let recent := match q.nakSent with | some (_, t) => same && within x.now t (ceilDiv 1000 x.ns) | none => false
      if !q.carries || recent then s
      else
        let n := if q.inSwitch then 0 else if same then q.nakOut + 1 else 1
        let s := (s.modDie d fun x => x.modPort p.val fun q => { q with nakSent := some (q.rxNext, x.now), nakOut := n }).emit
          (.word d p.val (nakWord q.rxNext))
        if 16 ≤ n then s.failLink d p.val 3 else s)

/-- RETRY_TIMEOUT (R139, Table 04-6 row 4, R151): `ACK_SEQ` has not advanced for 4 us. -/
def execRetryTimeout (d : DieId) (p : PortId) (s : State) : Host.Outcome State Fault Refusal :=
  let s := s.fresh
  let x := s.die d
  let q := x.port p.val
  done (if !x.on || !q.carries || q.retry.isEmpty || within x.now q.ackTick (ceilDiv 4000 x.ns) then s
    else
      let n := if q.inSwitch then 0 else q.timeouts + 1
      let s := s.modDie d fun x => x.modPort p.val fun q => { q with timeouts := n, ackTick := x.now }
      if 4 ≤ n then s.failLink d p.val 4 else s.replay d p.val q.txAck)

/-- LINK_HOLD_DONE (R118, R439): the port has emptied, or its 10 ms have passed. -/
def execLinkHoldDone (d : DieId) (p : PortId) (timeUp : Bool) (s : State) : Host.Outcome State Fault Refusal :=
  let s := s.fresh
  let x := s.die d
  let q := x.port p.val
  let mine (h : Held) : Bool := h.outPort == p.val && (h.bin == .queue || h.bin == .circuit)
  done (match q.leaveTo with
    | none => s
    | some dest =>
      if !x.on then s
      else if x.emptied p.val || timeUp then
        (s.modDie d fun x =>
          let x := x.discardHeld mine (fun _ => cPort 2 1 p.val) false
          if dest == .disabled then
            let x := q.txPkts.foldl (fun (x : Die) t => x.discard { dst := t.dst, part := t.part } (cPort 2 1 p.val)) x
            x.modPort p.val fun q => q.resetLink .disabled 3
          else x.modPort p.val fun q => { q with state := .held, cause := 3, leaveTo := none }) |>
          fun (t : State) => if q.inService then t.bridgeDown d p.val else t
      else s)

end Sys2Proof.Machine
end

