-- ==== Sys2Proof/Machine/RouteCmds.lean ====
section
/-! DEFINITION. The route commands (spec/12 Routes, spec/05 Changing tables). -/

namespace Sys2Proof.Machine

/-- Code of a version state (Table 12-8). -/
def VerState.code : VerState → Nat
  | .active => 0
  | .linger => 1
  | .retired => 2
  | .staging => 3
  | .sealed => 4

/-- Route versions of a partition as a command of this tick finds them. -/
def Die.verNow (x : Die) (p : Nat) : Ver := x.tab.verAt p x.now

/-- Write the route versions of a partition. -/
def Die.setVer (x : Die) (p : Nat) (r : Ver) : Die := x.modTab fun t => { t with vers := Map.put t.vers p r }

/-- A version byte of a request. -/
def verOf (b : Byte) : Bool := b == 1

/-- Apply `UPDATE_MODE` and then `LINGER_TICKS` (R448). -/
def Die.routeConfig (x : Die) (p : Nat) (mode : Byte) (linger : BitVec 16) : Except Status Die :=
  let r := x.verNow p
  let drain := mode == 1
  let moving (t : VerState) : Bool := t == .linger || t == .staging || t == .sealed
  if mode.toNat > 1 || linger.toNat < 256 then .error .badField
  else if drain != r.drain && (moving r.v0 || moving r.v1) then .error .versionBusy
  else .ok (x.setVer p { r with drain := drain, linger := linger })

/-- ROUTE_CONFIG (R210, R448). -/
def execRouteConfig (f : Frame) (part mask mode : Byte) (linger : BitVec 16) (s : State) : Host.Outcome State Fault Refusal :=
  done (s.serveMask { op := 0x0401, change := true, len := 8 } f part mask false
    (dieAct 0x0401 1 0 0 fun x => x.routeConfig part.toNat mode linger))

/-- R449: the entries of the ACTIVE version whose `PART` is the partition are copied into version `v`. An entry that neither version
lists is 0 in both. -/
def Tables.copyActive (t : Tables) (p : Nat) (sel v : Bool) : Tables :=
  ((t.route0 ++ t.route1).map (·.1)).foldl
    (fun (u : Tables) k => if rtPart (t.route sel k) == p then u.setRoute v k (t.route sel k) else u) t

/-- R207 and R451: an entry may be written over another. -/
def recordOk (p : Nat) (before : BitVec 64) (r : StageRec) : Bool :=
  rtPart before == p && rtPart r.entry == p &&
    (if rtKind r.entry = 2 then rtPort r.entry == 64 || rtPort r.entry == 66 || rtPort r.entry == 68
     else if rtKind r.entry = 1 then decide (rtPort r.entry ≤ 69) else true)

/-- `route.stage` at a die (R207, R449 to R451, R215); the records are checked before the version (R451 and R207 name no order: DESIGN CHOICE,
log entry 128). -/
def Die.routeStage (x : Die) (p : Nat) (v : Bool) (recs : List StageRec) : Except Status Die :=
  let r := x.verNow p
  let fresh := r.st v == .retired && !r.drain
  let t := if fresh then x.tab.copyActive p r.sel v else x.tab
  if !recs.all (fun e => recordOk p (t.route v e.dst.toNat) e) then .error .badField
  else if r.drain && v != r.sel then .error .versionBusy
  else if r.drain && !x.isDrained p 0xD8 then .error .notDrained
  else if !r.drain && r.st v != .retired && r.st v != .staging then .error .versionBusy
  else
    let t := recs.foldl (fun (t : Tables) e => t.setRoute v e.dst.toNat (rtClean e.entry)) t
    let y := { x with tab := t }
    .ok (if r.drain then y else y.setVer p (r.setSt v .staging))

/-- ROUTE_STAGE (R39, R207, R215, R449 to R451). -/
def execRouteStage (f : Frame) (part mask version : Byte) (recs : List StageRec) (s : State) :
    Host.Outcome State Fault Refusal :=
  done (s.serveMask { op := 0x0410, change := true, len := 8 + 12 * recs.length } f part mask
    (version.toNat > 1 || recs.isEmpty || decide (256 < recs.length) || recs.any fun e => 2047 < e.dst.toNat)
    (dieAct 0x0410 1 ((recs.map fun e => e.dst.toNat).headD 0) recs.length fun x =>
      x.routeStage part.toNat (verOf version) recs))

/-- ROUTE_SEAL: ACTION 0 (R208, R452). -/
def execRouteSeal (f : Frame) (part mask version : Byte) (s : State) : Host.Outcome State Fault Refusal :=
  done (s.serveMask { op := 0x0411, change := true, len := 4 } f part mask (version.toNat > 1)
    (dieAct 0x0411 1 0 0 fun x =>
      let r := x.verNow part.toNat
      if r.st (verOf version) == .staging then .ok (x.setVer part.toNat (r.setSt (verOf version) .sealed))
      else .error .versionBusy))

/-- ROUTE_DISCARD: `route.seal` with ACTION 1; a pending flip to the version is cancelled (R452). -/
def execRouteDiscard (f : Frame) (part mask version : Byte) (s : State) : Host.Outcome State Fault Refusal :=
  done (s.serveMask { op := 0x0411, change := true, len := 4 } f part mask (version.toNat > 1)
    (dieAct 0x0411 1 0 0 fun x =>
      let r := x.verNow part.toNat
      let v := verOf version
      if r.st v == .staging || r.st v == .sealed then
        .ok (x.setVer part.toNat { (r.setSt v .retired) with flip := none })
      else .error .versionBusy))

/-- ROUTE_FLIP (R209, R212, R453). -/
def execRouteFlip (f : Frame) (part mask : Byte) (flipTick : Tick) (s : State) : Host.Outcome State Fault Refusal :=
  done (s.serveMask { op := 0x0412, change := true, len := 16 } f part mask false
    (dieAct 0x0412 1 0 0 fun x =>
      let r := x.verNow part.toNat
      if r.flip.isSome then .error .versionBusy
      else if r.st (!r.sel) != .sealed then .error .notSealed
      else if !later flipTick x.now then .error .tooLate
      else .ok (x.setVer part.toNat { r with flip := some flipTick, flipLinger := r.linger })))

/-- A tick field whose bit 63 says that it is present (Table 12-8). -/
def tickField (t : Option Tick) : List Byte :=
  match t with
  | some v => le 8 (v.toNat + 2 ^ 63)
  | none => le 8 0

/-- The 32 B of a die in `route.status` (Table 12-8). -/
def Die.routeRecord (x : Die) (p : Nat) : List Byte :=
  if x.on then
    let r := x.verNow p
    let q := (x.tab.part p).quiesced
    [if r.sel then 1 else 0, BitVec.ofNat 8 r.v0.code, BitVec.ofNat 8 r.v1.code, if r.drain then 1 else 0] ++
      le 2 r.linger.toNat ++ [if x.full then q else q ||| preWarmHeld, x.drainedMask p] ++ tickField r.flip ++
      tickField r.retire ++ le 8 0
  else le 32 0

/-- ROUTE_STATUS (R214, Table 12-8). -/
def execRouteStatus (f : Frame) (part : Byte) (s : State) : Host.Outcome State Fault Refusal :=
  done (s.serveRead { op := 0x0413, change := false, len := 4 } f fun t =>
    if part.toNat > 15 then (.badField, [])
    else (.ok, allDieIds.flatMap fun d => (t.die d).routeRecord part.toNat))

/-- ROUTE_READ (R178). -/
def execRouteRead (f : Frame) (die version : Byte) (firstDst count : BitVec 16) (s : State) :
    Host.Outcome State Fault Refusal :=
  done (s.serveRead { op := 0x0414, change := false, len := 8 } f fun t =>
    match dieOf die with
    | none => (.badField, [])
    | some d =>
      let a := firstDst.toNat
      let n := count.toNat
      if version.toNat > 1 || n = 0 || 256 < n || 2048 < a + n then (.badField, [])
      else if (t.die d).on then
        (.ok, (List.range n).flatMap fun i => le 8 ((t.die d).tab.route (verOf version) (a + i)).toNat)
      else (.dieOff, []))

/-- An entry with `PART` set. -/
def rtSetPart (e : BitVec 64) (p : Nat) : BitVec 64 := setFld e 9 4 (BitVec.ofNat 4 p)

/-- Every partition of a list of `DST`, and the one that takes them, has its unicast virtual channels DRAINED where it changes routes by
drain (R215). -/
def Die.drainOk (x : Die) (ps : List Nat) : Bool := ps.all fun p => !(x.verNow p).drain || x.isDrained p 0xD8

/-- `route.owner` at a die (R215, R447). -/
def Die.routeOwner (x : Die) (p a n : Nat) : Except Status Die :=
  let ks := (List.range n).map (a + ·)
  let owners := (p :: ks.flatMap fun k => [rtPart (x.tab.route false k), rtPart (x.tab.route true k)]).eraseDups
  if !x.drainOk owners then .error .notDrained
  else if ks.all fun k => rtKind (x.tab.route false k) == 0 && rtKind (x.tab.route true k) == 0 then
    .ok (x.modTab fun t => ks.foldl (fun (t : Tables) k =>
      (t.setRoute false k (rtSetPart (t.route false k) p)).setRoute true k (rtSetPart (t.route true k) p)) t)
  else .error .versionBusy

/-- ROUTE_OWNER (R447). -/
def execRouteOwner (f : Frame) (part mask : Byte) (firstDst count : BitVec 16) (s : State) :
    Host.Outcome State Fault Refusal :=
  let a := firstDst.toNat
  let n := count.toNat
  done (s.serveMask { op := 0x0415, change := true, len := 8 } f part mask (n = 0 || 2048 < a + n)
    (dieAct 0x0415 1 a n fun x => x.routeOwner part.toNat a n))

/-- REACH[l] of the four dies. -/
def State.reachBlock (s : State) (l : Nat) : List Byte :=
  allDieIds.flatMap fun d => le 4 ((s.die d).tab.reachOf l).toNat

/-- Serve `route.reach` (R454). -/
def State.serveReach (s : State) (f : Frame) (change : Bool) (mask leaf : Byte) (write : State → State) : State :=
  s.serve { op := 0x0420, change := change, len := 8 } f fun t =>
    if leaf.toNat > 63 || badMask mask then (t, .now .badField [])
    else if t.isSpine then (t, .now .invalidForRole [])
    else
      let r := (write t).overDies mask fun d t => (if change then t.traceDieWrite d 1 0x0420 leaf.toNat 1 .ok else t, .ok)
      (r.1, .now .ok (dieResult r.2 ++ r.1.reachBlock leaf.toNat))

/-- ROUTE_REACH_READ (R454). -/
def execRouteReachRead (f : Frame) (mask leaf : Byte) (s : State) : Host.Outcome State Fault Refusal :=
  done (s.serveReach f false mask leaf id)

/-- A write of REACH[l] on the dies of a mask, as a reach notice for every spine die with the acceptance tick as its
declaration tick (R188, R454, R666). -/
def State.writeReach (s : State) (mask : Byte) (l : Nat) (value : BitVec 32) : State :=
  (List.range 32).foldl (fun (t : State) q =>
    let k := 64 * q + l
    let newer := match Map.look t.notes.applied k with | some u => later t.boot.now u | none => true
    if newer then
      let t := { t with notes := { t.notes with applied := Map.put t.notes.applied k t.boot.now } }
      let t := allDieIds.foldl (fun (t : State) d =>
        if mask.getLsbD d.val && (t.die d).on then t.modDie d fun x => x.setReach l q (value.getLsbD q) else t) t
      t.noteColl q l (value.getLsbD q) t.boot.now
    else t) s

/-- ROUTE_REACH_WRITE (R180, R188, R454, R666). -/
def execRouteReachWrite (f : Frame) (mask leaf : Byte) (value : BitVec 32) (s : State) : Host.Outcome State Fault Refusal :=
  done (s.serveReach f true mask leaf fun t => t.writeReach mask leaf.toNat value)

end Sys2Proof.Machine
end

