-- ==== Sys2Proof/Machine/TrainCmds.lean ====
section
/-! DEFINITION. Training, width and rate switches, and link failure (spec/01 R23 to R29; spec/04 R141 to R153, R662 to R664). -/

namespace Sys2Proof.Machine

/-! ### Training and identity -/

/-- The check of R24 and R29: 0 passed, 1 plane, 2 identity (Table 13-8). -/
def State.cablingCause (s : State) (d : DieId) (p : Nat) (w : CtlWord) : BitVec 3 :=
  let ep := bit w 8
  let plane := (fld w 9 2).toNat == s.plane
  let die := (fld w 12 2).toNat
  let pos := (fld w 14 6).toNat
  let port := (fld w 20 7).toNat
  if s.isDown p then (if !ep then 2 else if plane then 0 else 1)
  else if 64 ≤ p then 0
  else if s.isSpine then
    (if !ep && plane && !bit w 11 && pos == p && die == p % 4 && port == 32 + s.spineDie d then 0 else 2)
  else if !ep && plane && bit w 11 && pos == p - 32 && die == (p - 32) % 4 && port == s.leafIndex d then 0 else 2

/-- `FAR_ID` (Table 12-6). -/
def State.farIdOf (s : State) (d : DieId) (p : Nat) (w : CtlWord) : BitVec 16 :=
  if s.isDown p then (s.endpointId d p).setWidth 16 else 0#8 ++ fld w 12 2 ++ fld w 14 6

/-- TRAIN_ID (R24, R25, R29, R141 to R143): in TRAIN the far end's identity is kept and checked, and a first mismatch is reported; after
it the far end says which lanes it has locked at 224 Gb/s. -/
def execTrainId (d : DieId) (p : PortId) (w : CtlWord) (s : State) : Host.Outcome State Fault Refusal :=
  done (s.onWord d p w 0xA8 fun s =>
    let q := (s.die d).port p.val
    if q.state != .train then
      (if bit w 90 then (s.modDie d fun x => x.modPort p.val fun q => { q with farLocked := fld w 86 4 }).rewiden d p.val else s)
    else
      let bad := s.cablingCause d p.val w
      let far := s.farIdOf d p.val w
      let s := s.modDie d fun x => x.modPort p.val fun q =>
        { q with farSerial := fld w 38 48, farId := far, farEp := bit w 8, farLocked := fld w 86 4, badId := bad }
      let s := if bad = 0 || bad = q.badId then s
        else s.raisePort 0x0385 d p.val (bad.setWidth 8) (le 6 (fld w 38 48).toNat ++ le 2 far.toNat)
      s.emit (.word d p.val (s.trainIdOf d p.val)))

/-- The data path of a port is powered: domain B of its bay is good (R157, R161); a bridge port needs none. -/
def State.lit (s : State) (d : DieId) (p : Nat) : Bool := decide (64 ≤ p) || (s.bay (bayOf d p)).domB

/-- `LANE_MAP` of a port's caddy, from which training starts (R160, Table 04-8). -/
def State.storedMap (s : State) (d : DieId) (p : Nat) : BitVec 5 :=
  if p < 64 then ((s.bay (bayOf d p)).eeprom.getD (180 + p % 32) 0).setWidth 5 else 0

/-- FAR_SIGNAL_DETECT (R141, R153, R157, R160, R161): a powered port in DETECT enters TRAIN. -/
def execFarSignalDetect (d : DieId) (p : PortId) (s : State) : Host.Outcome State Fault Refusal :=
  let s := s.fresh
  let x := s.die d
  done (if x.on && x.laneGroups.getLsbD (p.val / 4) && p.val < 70 && (x.port p.val).state == .detect && s.lit d p.val then
      let s := s.modDie d fun x => x.modPort p.val fun q =>
        { q with state := .train, locked := 0, farLocked := 0, badId := 0, laneMap := s.storedMap d p.val, measured := false,
                 probed := none }
      s.emit (.word d p.val (s.trainIdOf d p.val))
    else s)

/-- A fabric link whose loss was declared returns to service (R189, R281). -/
def State.linkReturns (s : State) (d : DieId) (p : Nat) : State :=
  let key := if s.isSpine then 64 * s.spineDie d + p else 64 * (p - 32) + s.leafIndex d
  if p < 64 && Map.lookD s.notes.lost key false then s.fabricLink d p true else s

/-- Training ends on a port (R89, R141, R142, R160): an external port runs at x1 on the lowest lane that both ends report locked, a bridge
port at x4; it keeps the polarity and order that training found. -/
def Port.trained (q : Port) (bridge : Bool) (found : BitVec 5) : Port :=
  let dest : LinkState := if q.badId ≠ 0 then .held else if bridge then .active else .activePw
  { (q.resetLink dest q.badId) with
    lanes := if bridge then 15 else laneMask ((bitsOf (q.locked &&& q.farLocked)).take 1), fullRate := bridge,
    locked := if bridge then 15 else 0, farLocked := if bridge then 15 else 0, badId := q.badId, training := !bridge,
    measured := true, probed := q.probed, laneMap := found }

/-- TRAIN_COMPLETE (R89, R141, R142, R157, R160, R206, R229): once the link's delay is measured and the lanes that it needs are locked at
both ends. HELD when the identity check failed. -/
def execTrainComplete (q : DiePort) (found : BitVec 5) (s : State) : Host.Outcome State Fault Refusal :=
  let (d, p) := q
  let s := s.fresh
  let q := (s.die d).port p.val
  let both := q.locked &&& q.farLocked
  let bridge := decide (64 ≤ p.val)
  done (if (s.die d).on && q.state == .train && q.measured && s.lit d p.val && (if bridge then both == 15 else both != 0) then
      let s := s.modDie d fun x =>
        (if found = q.laneMap then x else x.count (cPort 2 6 p.val)).modPort p.val fun q => q.trained bridge found
      let s := if q.badId = 0 then s.linkReturns d p.val else s
      (if bridge then s.reportRetrain d p.val false else s).checkPortCircuits d p.val
    else s)

/-! ### Lanes -/

/-- LANE_LOCK (R141, R143, R149): a lane locks at this end's receiver, at 106 Gb/s in TRAIN and at 224 Gb/s after it. -/
def execLaneLock (d : DieId) (p : PortId) (lane : Fin 4) (s : State) : Host.Outcome State Fault Refusal :=
  let s := s.fresh
  let q := (s.die d).port p.val
  let i := lane.val
  done (if !(s.die d).on then s
    else if q.state == .train then
      let s := s.modDie d fun x => x.modPort p.val fun q => { q with locked := setBit q.locked i true }
      s.emit (.word d p.val (s.trainIdOf d p.val))
    else if !(q.marks || q.state == .switching) || q.state == .sweep || bit q.lanes i || !(q.training || q.widen) then s
    else
      let s := s.modDie d fun x => x.modPort p.val fun q =>
        { q with locked := setBit q.locked i true, lost := if q.widen then setBit q.lost i false else q.lost }
      if q.marks then (s.emit (.word d p.val (s.trainIdOf d p.val))).rewiden d p.val else s)

/-- Lanes that a port takes after a loss of lock (R146, R148): at 106 Gb/s one lane (R662), in T1 the best one (R585). -/
def Port.afterLoss (q : Port) (narrow : Bool) : BitVec 4 :=
  let slow := match q.sw with | some w => w.slow | none => !q.fullRate
  if slow || narrow then laneMask ((q.byScore.filter fun i => decide (0 < q.score i)).take 1) else q.chooseLanes

/-- The lane under sweep of a port, at either end of the sweep. -/
def Port.sweptLane (q : Port) : Option Nat :=
  match q.near, q.far with
  | some n, _ => some n.lane.toNat
  | none, some f => some (fld f.word 12 2).toNat
  | none, none => none

/-- A lane of a port in SWEEP is lost (R148, R150, R170): the carrier moves to the lowest lane that is neither under sweep nor lost; the
link fails when there is none. -/
def State.sweepLoss (s : State) (d : DieId) (p i : Nat) : State :=
  let q := (s.die d).port p
  let needed := match q.sw with | some w => bit w.lanes i | none => bit q.lanes i
  if !needed then s
  else match (List.range 4).find? fun j => !bit q.lost j && q.sweptLane != some j with
    | some j => s.requestSwitch d p (laneMask [j]) false 0 true
    | none => s.failLink d p 2

/-- LANE_LOSS (R148, R150, R151): a lane in use is declared lost and the switch of R146 requested; with no lane left the link fails at
once, and so does a bridge port, which runs at x4 only (R89). -/
def execLaneLoss (d : DieId) (p : PortId) (lane : Fin 4) (s : State) : Host.Outcome State Fault Refusal :=
  let s := s.fresh
  let q := (s.die d).port p.val
  let i := lane.val
  let used := bit q.lanes i || (match q.sw with | some w => bit w.lanes i | none => false)
  done (if !(s.die d).on || !(q.marks || q.state == .switching) then s
    else if !used then
      let s := s.modDie d fun x => x.modPort p.val fun q => { q with locked := setBit q.locked i false }
      if q.marks && (q.training || q.widen) then s.emit (.word d p.val (s.trainIdOf d p.val)) else s
    else
      let s := s.modDie d fun x => x.modPort p.val fun q =>
        { q with lost := setBit q.lost i true, locked := setBit q.locked i false }
      let q := (s.die d).port p.val
      if q.state == .sweep then s.sweepLoss d p.val i
      else
        let m := q.afterLoss (s.aim == 1 && decide (p.val < 64))
        if m = 0 || decide (64 ≤ p.val) then s.failLink d p.val 2
        else s.requestSwitch d p.val m (match q.sw with | some w => w.slow | none => !q.fullRate) 0 true)

/-! ### Switches -/

/-- The switch of a WIDTH_REQ, and with it that which this end has requested: the later tick holds, and the lanes are those of R146
(R144; spec/04 What if both ends lose a lane at once). -/
def Port.agree (q : Port) (now : Tick) (w : CtlWord) : Switch :=
  let slow := bit w 12
  let byLoss := fld w 13 3 == 0
  let new : Switch := { lanes := fld w 8 4, slow := slow, reason := fld w 13 3, tick := fld w 20 48, byLoss := byLoss, start := now }
  match q.sw with
  | none => new
  | some c =>
    { new with lanes := if slow && c.slow then laneMask ((q.byScore.filter fun i => decide (0 < q.score i)).take 1) else q.chooseLanes,
               slow := slow && c.slow, byLoss := byLoss || c.byLoss, start := if c.byLoss then c.start else now,
               tick := if later c.tick new.tick then c.tick else new.tick }

/-- WIDTH_REQ (R89, R144, R147, R662). -/
def execWidthReq (d : DieId) (p : PortId) (w : CtlWord) (s : State) : Host.Outcome State Fault Refusal :=
  done (s.onWord d p w 0xA9 fun s =>
    let q := (s.die d).port p.val
    if bit w 12 && popCount (fld w 8 4) ≠ 1 then s.modDie d fun x => x.count (cPort 2 0 p.val)
    else if !q.marks then s
    else
      let s := s.modDie d fun x => x.modPort p.val fun q => { q with lost := q.lost ||| fld w 16 4 }
      let new := ((s.die d).port p.val).agree (s.die d).now w
      if new.lanes = 0 || (decide (64 ≤ p.val) && q.carries && new.lanes ≠ 15) then s.failLink d p.val 2
      else s.modDie d fun x => x.modPort p.val fun q => { q with sw := some new })

/-- SWITCH_START (R144): at `SWITCH_TICK` a port that carries packets enters SWITCH. -/
def execSwitchStart (d : DieId) (p : PortId) (s : State) : Host.Outcome State Fault Refusal :=
  let s := s.fresh
  let x := s.die d
  let q := x.port p.val
  done (match q.sw with
    | some w =>
      if x.on && q.carries && reached x.now w.tick then
        s.modDie d fun x => x.modPort p.val fun q => { q with state := .switching }
      else s
    | none => s)

/-- The port once a switch has ended (R145, R233). The NAKs and timeouts that it counted before the switch count no further (DESIGN CHOICE,
log entry 77). -/
def Die.switched (x : Die) (p : Nat) (w : Switch) : Die :=
  let q := x.port p
  let old := skidAt x.ns p q q.width q.fullRate
  let full := popCount w.lanes = 4
  x.modPort p fun q =>
    { q with
      state := if q.state == .switching then (if w.slow then .activePw else .active) else q.state,
      lanes := w.lanes, fullRate := !w.slow, sw := none, oldSkid := some (old, x.now + 2),
      locked := if w.slow then q.locked else if w.reason = 3 then w.lanes else q.locked ||| w.lanes,
      farLocked := if w.slow then q.farLocked else if w.reason = 3 then w.lanes else q.farLocked ||| w.lanes,
      training := q.training && !full && w.reason ≠ 3, widen := q.widen && !full,
      timeouts := 0, nakCount := 0 }

/-- The width of R664 is settled on a port that is not at x4 when its ACTIVE bound has passed and no switch is under way: over the lanes
locked at 224 Gb/s in both directions, with a switch where that is wider. Its other lanes are declared lost. Where no lane has locked the
port stays as it is and keeps training. -/
def State.settleBound (s : State) (d : DieId) (p : Nat) : State :=
  let q := (s.die d).port p
  let m := q.chooseLanes fun i => bit q.both i
  if m = 0 then s.reportRetrain d p false
  else
    let wider := decide (q.width < popCount m) || !q.fullRate
    let s := s.modDie d fun x => x.modPort p fun q => { q with training := false }
    let s := if wider then s.requestSwitch d p m false 1 false else s.reportRetrain d p false
    let keep := if wider then m else q.lanes
    s.modDie d fun x => x.modPort p fun q => { q with lost := q.lost ||| ~~~keep }

/-- SWITCH_COMPLETE (R143 to R145, R148, R149, R206, R233, R443, R664): the port is at its new width and rate, and a further switch is
requested where the lanes locked meanwhile give one. -/
def execSwitchComplete (d : DieId) (p : PortId) (s : State) : Host.Outcome State Fault Refusal :=
  let s := s.fresh
  let x := s.die d
  let q := x.port p.val
  done (match q.sw with
    | some w =>
      if x.on && !q.carries && reached x.now w.tick then
        let s := s.modDie d fun x => x.switched p.val w
        let s := if q.state == .switching then
            (s.modDie d fun x => x.modPort p.val fun q => { q with nakSent := some (q.rxNext, x.now), nakOut := 0 }).emit
              (.word d p.val (nakWord q.rxNext))
          else s
        let s := if w.byLoss && popCount w.lanes ≠ 4 then s.raiseDegrade d p.val else s
        let r := (s.die d).port p.val
        let s := if r.training || r.widen then s.emit (.word d p.val (s.trainIdOf d p.val)) else s
        let s := if r.settle && r.training then
            (s.modDie d fun x => x.modPort p.val fun q => { q with settle := false }).settleBound d p.val
          else if r.training then s.rewiden d p.val
          else (s.reportRetrain d p.val false).rewiden d p.val
        s.checkPortCircuits d p.val
      else s
    | none => s)

/-- SWITCH_TIMEOUT (R150, Table 04-6 row 2): 20 us from the loss of lock that started the switch, or from `SWITCH_TICK` when none did. -/
def execSwitchTimeout (d : DieId) (p : PortId) (s : State) : Host.Outcome State Fault Refusal :=
  let s := s.fresh
  let x := s.die d
  let n := 20000 / x.ns
  done (match (x.port p.val).sw with
    | some w =>
      if x.on && (if w.byLoss then !within x.now w.start n else reached x.now w.tick && !within x.now w.tick n) then s.failLink d p.val 2
      else s
    | none => s)

/-- TRAIN_BOUND_EXPIRY (R664, R663): the ACTIVE bound of a training passes before the port reaches x4. -/
def execTrainBoundExpiry (d : DieId) (p : PortId) (s : State) : Host.Outcome State Fault Refusal :=
  let s := s.fresh
  let q := (s.die d).port p.val
  done (if !(s.die d).on || !q.training || q.boundOver || !(q.marks || q.state == .switching) then s
    else
      let s := s.modDie d fun x => x.modPort p.val fun r => { r with boundOver := true, settle := q.sw.isSome }
      (if q.sw.isSome then s else s.settleBound d p.val).raiseDegrade d p.val)

/-- LINK_FAIL (R150, Table 04-6 row 1, R151): no lane keeps lock, or no codeword decodes for 4 us. -/
def execLinkFail (d : DieId) (p : PortId) (s : State) : Host.Outcome State Fault Refusal :=
  let s := s.fresh
  let q := (s.die d).port p.val
  done (if (s.die d).on && q.up && !q.inSwitch then s.failLink d p.val 1 else s)

end Sys2Proof.Machine
end

