-- ==== Sys2Proof/Machine/SweepCmds.lean ====
section
/-! DEFINITION. Margin sweeps: the near end that runs one on command and the far end that takes part (spec/04 R169 to R177,
Table 04-10). -/

namespace Sys2Proof.Machine

/-- Fields of a SWEEP word (Table 04-10). -/
def swLane (w : CtlWord) : BitVec 2 := fld w 12 2
def swFarRx (w : CtlWord) : Bool := bit w 14
def swId (w : CtlWord) : Byte := fld w 16 8
def swErrors (w : CtlWord) : BitVec 16 := fld w 52 16
def swPoint (w : CtlWord) : Nat := (fld w 68 12).toNat

/-- A SWEEP word with another `OP` and count, its other fields as in `w`. -/
def swReply (w : CtlWord) (op : BitVec 4) (errors : BitVec 16) : CtlWord :=
  sweepWord op (swLane w) (swFarRx w) (swId w) (fld w 24 6) (fld w 30 6) (fld w 36 16) errors (fld w 68 12)

/-! ### The far end -/

/-- The far end holds the sweep that a word names, and its 64 ticks have not passed (R175). -/
def Die.farHolds (x : Die) (p : Nat) (w : CtlWord) : Bool :=
  match (x.port p).far with
  | some f => swId f.word == swId w && within x.now f.last 64
  | none => false

/-- The far end's part of a sweep after a SWEEP word of tick `now`; a word that names another point sets its offset (R171, R175). -/
def SweepFar.next (f : SweepFar) (w : CtlWord) (now : Tick) : SweepFar :=
  { word := w, last := now, since := if swPoint f.word = swPoint w && swLane f.word = swLane w then f.since else now }

/-- A SWEEP word at the far end: accepted, it restarts the count of 64 ticks; with no sweep it is answered with ABORTED (R175). -/
def State.farWord (s : State) (d : DieId) (p : Nat) (w : CtlWord) : State :=
  if (s.die d).farHolds p w then
    s.modDie d fun x => x.modPort p fun q => { q with far := q.far.map fun f => f.next w x.now }
  else s.emit (.word d p (swReply w 6 0))

/-- The START of this end beats that of the far end (R176); between two dies of one tray, the lower die number. -/
def State.startWins (s : State) (d : DieId) (p : Nat) : Bool :=
  let q := (s.die d).port p
  let own : BitVec 48 := s.fuse.bits.extractLsb' 0 48
  q.farEp || decide (own.toNat < q.farSerial.toNat) || (own == q.farSerial && decide (d.val < (sibling d p).val))

/-- The port takes the far part of a sweep, whatever its state: a port in service leaves it at once (the manual says nothing of a START on a
port that is not HELD; DESIGN CHOICE, log entry 120). -/
def State.takeFar (s : State) (d : DieId) (p : Nat) (w : CtlWord) : State :=
  s.modDie d fun x => x.modPort p fun q => { q with state := .sweep, far := some { word := w, last := x.now, since := x.now } }

/-- SWEEP_START (R170, R171, R176). -/
def execSweepStart (d : DieId) (p : PortId) (w : CtlWord) (s : State) : Host.Outcome State Fault Refusal :=
  done (s.onWord d p w 0xAA fun s =>
    match ((s.die d).port p.val).near with
    | none => s.takeFar d p.val w
    | some _ =>
      if s.startWins d p.val then s
      else ((s.endSweep d p.val 2).emit (.word d p.val (swReply w 7 0))).takeFar d p.val w)

/-- SWEEP_KEEPALIVE (R172, R175). -/
def execSweepKeepalive (d : DieId) (p : PortId) (w : CtlWord) (s : State) : Host.Outcome State Fault Refusal :=
  done (s.onWord d p w 0xAA fun s =>
    if ((s.die d).port p.val).near.isSome then s else s.farWord d p.val w)

/-- SWEEP_FAR_TIMEOUT (R175): at the boundary of tick m + 64 the far end restores its receivers and returns to DETECT. -/
def execSweepFarTimeout (d : DieId) (p : PortId) (s : State) : Host.Outcome State Fault Refusal :=
  let s := s.fresh
  let x := s.die d
  done (match (x.port p.val).far with
    | some f =>
      if x.on && !within x.now f.last 64 then
        s.modDie d fun x => x.modPort p.val fun q =>
          if q.state == .sweep then { (q.resetLink .detect 0) with far := none } else { q with far := none }
      else s
    | none => s)

/-! ### The near end -/

/-- The sweep of a request that runs (R446). -/
def State.modSweep (s : State) (q : SweepReq) (f : SweepRec → SweepRec) : State :=
  { s with sweeps := s.sweeps.map fun r => if r.running && r.req == q then f r else r }

/-- The lane after one in the order of a sweep. -/
def laneAfter (l : List Nat) (i : Nat) : Option Nat :=
  match l with
  | [] => none
  | j :: r => if j = i then r.head? else laneAfter r i

/-- The near end moves to a point and sends its SWEEP word (R171, R172). -/
def State.toPoint (s : State) (d : DieId) (p : Nat) (n : SweepNear) (lane point : Nat) : State :=
  (s.modDie d fun x => x.modPort p fun q =>
    { q with near := some { n with lane := BitVec.ofNat 2 lane, point := point, lastSent := x.now, since := x.now } }).emit
    (.word d p (sweepWordOf n.req 3 lane point))

/-- A point of a sweep is done: its count is stored, and the sweep goes to the next point, to the next lane, or ends with the
switch back to x4 (R170 to R173, R177). -/
def State.pointDone (s : State) (d : DieId) (p : Nat) (n : SweepNear) (errors : BitVec 16) : State :=
  let m : BitVec 4 := n.req.lanes.setWidth 4
  let lane := n.lane.toNat
  let s := s.modSweep n.req fun r => { r with counts := Map.put r.counts (4096 * lane + n.point) errors, done := r.done + 1 }
  if n.point + 1 < (sweepPoints n.req).getD 0 then s.toPoint d p n lane (n.point + 1)
  else match laneAfter (sweepLanes m) lane with
    | some next =>
      let s := s.toPoint d p n next 0
      if sweepCarrier m next = sweepCarrier m lane then s
      else s.requestSwitch d p (laneMask [sweepCarrier m next]) false 4 false
    | none =>
      let s := s.emit (.word d p (sweepWordOf n.req 5 lane n.point))
      (s.endSweep d p 0).requestSwitch d p 15 false 4 false

/-- SWEEP_POINT (R171, R173): at the near end of a FAR_RX sweep, the far end's count; at the far end, the next point. -/
def execSweepPoint (d : DieId) (p : PortId) (w : CtlWord) (s : State) : Host.Outcome State Fault Refusal :=
  done (s.onWord d p w 0xAA fun s =>
    match ((s.die d).port p.val).near with
    | some n =>
      if n.req.side == 1 && n.req.sweepId == swId w && n.lane == swLane w && n.point == swPoint w then
        s.pointDone d p.val n (swErrors w)
      else s
    | none => s.farWord d p.val w)

/-- The receiver has settled for 1 tick at a point and counted for `DWELL` ticks (R171). -/
def dwelt (now since : Tick) (dwell : BitVec 16) : Bool := reached now (since + 1 + dwell.setWidth 48)

/-- SWEEP_POINT_DONE (R171 to R173): the dwell at a point ends at the swept receiver. -/
def execSweepPointDone (d : DieId) (p : PortId) (errors : BitVec 16) (s : State) : Host.Outcome State Fault Refusal :=
  let s := s.fresh
  let q := (s.die d).port p.val
  done (if !(s.die d).on || q.state != .sweep then s
    else match q.near with
      | some n => if n.req.side == 0 && dwelt (s.die d).now n.since n.req.dwell then s.pointDone d p.val n errors else s
      | none => match q.far with
        | some f => if swFarRx f.word && dwelt (s.die d).now f.since (fld f.word 36 16) then s.emit (.word d p.val (swReply f.word 3 errors)) else s
        | none => s)

/-- SWEEP_KEEPALIVE_SEND (R172). -/
def execSweepKeepaliveSend (d : DieId) (p : PortId) (s : State) : Host.Outcome State Fault Refusal :=
  let s := s.fresh
  let q := (s.die d).port p.val
  done (match q.near with
    | some n =>
      if (s.die d).on && q.state == .sweep then
        (s.modDie d fun x => x.modPort p.val fun q => { q with near := some { n with lastSent := x.now } }).emit
          (.word d p.val (sweepWordOf n.req 2 n.lane.toNat n.point))
      else s
    | none => s)

/-- SWEEP_END (R177): the far end restores its settings; the port stays HELD. -/
def execSweepEnd (d : DieId) (p : PortId) (w : CtlWord) (s : State) : Host.Outcome State Fault Refusal :=
  done (s.onWord d p w 0xAA fun s =>
    if ((s.die d).port p.val).near.isSome then s
    else if (s.die d).farHolds p.val w then
      s.modDie d fun x => x.modPort p.val fun q =>
        { q with far := none, state := .held, cause := if q.cause = 0 then 3 else q.cause }
    else s.emit (.word d p.val (swReply w 6 0)))

/-- The near end's sweep ends because of a word that names it. -/
def State.sweepEnded (s : State) (d : DieId) (p : Nat) (w : CtlWord) : State :=
  match ((s.die d).port p).near with
  | some n => if n.req.sweepId == swId w then s.endSweep d p 2 else s
  | none => s

/-- SWEEP_ABORTED (R173, R175). -/
def execSweepAborted (d : DieId) (p : PortId) (w : CtlWord) (s : State) : Host.Outcome State Fault Refusal :=
  done (s.onWord d p w 0xAA fun s => s.sweepEnded d p.val w)

/-- SWEEP_BUSY (R176): the far end keeps its own sweep; a winner that reads the loser's BUSY goes on. -/
def execSweepBusy (d : DieId) (p : PortId) (w : CtlWord) (s : State) : Host.Outcome State Fault Refusal :=
  done (s.onWord d p w 0xAA fun s => if s.startWins d p.val then s else s.sweepEnded d p.val w)

end Sys2Proof.Machine
end

