-- ==== Sys2Proof/Machine/Dispatch.lean ====
section
/-! DEFINITION. The meaning of each command, one arm per constructor of Instr, in the order of spec/opcode_table.json. -/

namespace Sys2Proof.Machine

/-- The effect of a command on everything but the queue of waiting commands. -/
def exec (i : Instr) (s : State) : Host.Outcome State Fault Refusal :=
  match i with
  | .idRead f => Sys2Proof.Machine.execIdRead f s
  | .idCaddy f bay => Sys2Proof.Machine.execIdCaddy f bay s
  | .idWrite f role rack slot => Sys2Proof.Machine.execIdWrite f role rack slot s
  | .idIdentify f identify => Sys2Proof.Machine.execIdIdentify f identify s
  | .bootStatus f => Sys2Proof.Machine.execBootStatus f s
  | .bootReady f => Sys2Proof.Machine.execBootReady f s
  | .tickConfig f priority period => Sys2Proof.Machine.execTickConfig f priority period s
  | .tickStatus f => Sys2Proof.Machine.execTickStatus f s
  | .linkStatus f die firstPort count => Sys2Proof.Machine.execLinkStatus f die firstPort count s
  | .linkConfigHold f die port => Sys2Proof.Machine.execLinkConfigHold f die port s
  | .linkConfigRelease f die port => Sys2Proof.Machine.execLinkConfigRelease f die port s
  | .linkConfigDisable f die port => Sys2Proof.Machine.execLinkConfigDisable f die port s
  | .linkRetrainWiden f die port => Sys2Proof.Machine.execLinkRetrainWiden f die port s
  | .linkRetrainFull f die port => Sys2Proof.Machine.execLinkRetrainFull f die port s
  | .linkRetrainNarrow f die port lanes => Sys2Proof.Machine.execLinkRetrainNarrow f die port lanes s
  | .linkPortmap f die cabled => Sys2Proof.Machine.execLinkPortmap f die cabled s
  | .linkSweep f q => Sys2Proof.Machine.execLinkSweep f q s
  | .linkSweepResult f die port sweepId lane firstPoint count => Sys2Proof.Machine.execLinkSweepResult f die port sweepId lane firstPoint count s
  | .routeConfig f part mask mode linger => Sys2Proof.Machine.execRouteConfig f part mask mode linger s
  | .routeStage f part mask version recs => Sys2Proof.Machine.execRouteStage f part mask version recs s
  | .routeSeal f part mask version => Sys2Proof.Machine.execRouteSeal f part mask version s
  | .routeDiscard f part mask version => Sys2Proof.Machine.execRouteDiscard f part mask version s
  | .routeFlip f part mask flipTick => Sys2Proof.Machine.execRouteFlip f part mask flipTick s
  | .routeStatus f part => Sys2Proof.Machine.execRouteStatus f part s
  | .routeRead f die version firstDst count => Sys2Proof.Machine.execRouteRead f die version firstDst count s
  | .routeOwner f part mask firstDst count => Sys2Proof.Machine.execRouteOwner f part mask firstDst count s
  | .routeReachRead f mask leaf => Sys2Proof.Machine.execRouteReachRead f mask leaf s
  | .routeReachWrite f mask leaf value => Sys2Proof.Machine.execRouteReachWrite f mask leaf value s
  | .partOpen f part mask => Sys2Proof.Machine.execPartOpen f part mask s
  | .partClose f part mask => Sys2Proof.Machine.execPartClose f part mask s
  | .partGrantSeg f part die seg => Sys2Proof.Machine.execPartGrantSeg f part die seg s
  | .partReturnSeg f part die seg => Sys2Proof.Machine.execPartReturnSeg f part die seg s
  | .partDirRange f part die base size => Sys2Proof.Machine.execPartDirRange f part die base size s
  | .partPortsAssign f part die port => Sys2Proof.Machine.execPartPortsAssign f part die port s
  | .partPortsUnassign f part die port => Sys2Proof.Machine.execPartPortsUnassign f part die port s
  | .partRestart f part mask => Sys2Proof.Machine.execPartRestart f part mask s
  | .partConfig f part mask setMask mode failMode circCap shares lease => Sys2Proof.Machine.execPartConfig f part mask setMask mode failMode circCap shares lease s
  | .partStatus f part => Sys2Proof.Machine.execPartStatus f part s
  | .partQuiesce f part mask vcMask => Sys2Proof.Machine.execPartQuiesce f part mask vcMask s
  | .partResume f part mask vcMask => Sys2Proof.Machine.execPartResume f part mask vcMask s
  | .mgrNonce f => Sys2Proof.Machine.execMgrNonce f s
  | .mgrKey f nonce key => Sys2Proof.Machine.execMgrKey f nonce key s
  | .mgrClaim f epoch => Sys2Proof.Machine.execMgrClaim f epoch s
  | .mgrBeat f => Sys2Proof.Machine.execMgrBeat f s
  | .mgrRelease f => Sys2Proof.Machine.execMgrRelease f s
  | .mgrStatus f => Sys2Proof.Machine.execMgrStatus f s
  | .grpOpen f part mask group control weights => Sys2Proof.Machine.execGrpOpen f part mask group control weights s
  | .grpClose f part mask group => Sys2Proof.Machine.execGrpClose f part mask group s
  | .grpStatus f part die group => Sys2Proof.Machine.execGrpStatus f part die group s
  | .circSetup f part die circuit entry lease => Sys2Proof.Machine.execCircSetup f part die circuit entry lease s
  | .circRenew f part mask circuit lease => Sys2Proof.Machine.execCircRenew f part mask circuit lease s
  | .circRelease f part mask circuit => Sys2Proof.Machine.execCircRelease f part mask circuit s
  | .circRead f part die first count => Sys2Proof.Machine.execCircRead f part die first count s
  | .dirSeq f part mask seqId desc => Sys2Proof.Machine.execDirSeq f part mask seqId desc s
  | .dirWrite f part mask recs => Sys2Proof.Machine.execDirWrite f part mask recs s
  | .dirRangeRefresh f part mask seqId first count age => Sys2Proof.Machine.execDirRangeRefresh f part mask seqId first count age s
  | .dirRangeEvict f part mask seqId first count => Sys2Proof.Machine.execDirRangeEvict f part mask seqId first count s
  | .dirRead f part die seqId first count => Sys2Proof.Machine.execDirRead f part die seqId first count s
  | .congConfig f part mask vc setMask mode mark throttle => Sys2Proof.Machine.execCongConfig f part mask vc setMask mode mark throttle s
  | .pwrStateT0 f => Sys2Proof.Machine.execPwrStateT0 f s
  | .pwrStateT1 f => Sys2Proof.Machine.execPwrStateT1 f s
  | .pwrStateT2 f => Sys2Proof.Machine.execPwrStateT2 f s
  | .pwrStateT3 f => Sys2Proof.Machine.execPwrStateT3 f s
  | .pwrRamp f rackLimit trayShare paceShare => Sys2Proof.Machine.execPwrRamp f rackLimit trayShare paceShare s
  | .pwrStatus f => Sys2Proof.Machine.execPwrStatus f s
  | .faultRemap f part mask rank spare epoch effect => Sys2Proof.Machine.execFaultRemap f part mask rank spare epoch effect s
  | .faultAlias f part die firstRank count => Sys2Proof.Machine.execFaultAlias f part die firstRank count s
  | .faultReach d p crcOk plane spine leaf state decl => Sys2Proof.Machine.execFaultReach d p crcOk plane spine leaf state decl s
  | .ctrRead f ids => Sys2Proof.Machine.execCtrRead f ids s
  | .traceRead f offset length => Sys2Proof.Machine.execTraceRead f offset length s
  | .diagRead f die window addr count => Sys2Proof.Machine.execDiagRead f die window addr count s
  | .diagWrite f die window addr words => Sys2Proof.Machine.execDiagWrite f die window addr words s
  | .diagLoop f die port count len => Sys2Proof.Machine.execDiagLoop f die port count len s
  | .loopbackComplete d => Sys2Proof.Machine.execLoopbackComplete d s
  | .evtAck f ackSeq => Sys2Proof.Machine.execEvtAck f ackSeq s
  | .evtSubscribe f part => Sys2Proof.Machine.execEvtSubscribe f part s
  | .evtUnsubscribe f part => Sys2Proof.Machine.execEvtUnsubscribe f part s
  | .fuseRead f => Sys2Proof.Machine.execFuseRead f s
  | .fuseKeyProgram f slot hash => Sys2Proof.Machine.execFuseKeyProgram f slot hash s
  | .fuseKeyRevoke f slot => Sys2Proof.Machine.execFuseKeyRevoke f slot s
  | .fuseRollbackAdvance f floor => Sys2Proof.Machine.execFuseRollbackAdvance f floor s
  | .fusePrivilegeGrant f cls bit => Sys2Proof.Machine.execFusePrivilegeGrant f cls bit s
  | .fusePrivilegeDeny f cls bit => Sys2Proof.Machine.execFusePrivilegeDeny f cls bit s
  | .fuseDebugUnlock f => Sys2Proof.Machine.execFuseDebugUnlock f s
  | .fuseDebugLock f => Sys2Proof.Machine.execFuseDebugLock f s
  | .fuseAudit f first count => Sys2Proof.Machine.execFuseAudit f first count s
  | .fuseUseComplete readBackOk => Sys2Proof.Machine.execFuseUseComplete readBackOk s
  | .fwWrite f offset data => Sys2Proof.Machine.execFwWrite f offset data s
  | .fwVerify f => Sys2Proof.Machine.execFwVerify f s
  | .fwVerifyComplete bank => Sys2Proof.Machine.execFwVerifyComplete bank s
  | .fwActivateNextReset f => Sys2Proof.Machine.execFwActivateNextReset f s
  | .fwActivateNow f => Sys2Proof.Machine.execFwActivateNow f s
  | .fwStatus f => Sys2Proof.Machine.execFwStatus f s
  | .fmpRelay f opcode payload => Sys2Proof.Machine.execFmpRelay f opcode payload s
  | .fmpRelayResponse d p tag status payload => Sys2Proof.Machine.execFmpRelayResponse d p tag status payload s
  | .icmpv6Echo eth1 src ident seqNo data => Sys2Proof.Machine.execIcmpv6Echo eth1 src ident seqNo data s
  | .neighborDiscovery eth1 src target => Sys2Proof.Machine.execNeighborDiscovery eth1 src target s
  | .mspPoll x => Sys2Proof.Machine.execMspPoll x s
  | .mspWrite x offset data => Sys2Proof.Machine.execMspWrite x offset data s
  | .mspDoorbell x => Sys2Proof.Machine.execMspDoorbell x s
  | .mspReadResp x offset => Sys2Proof.Machine.execMspReadResp x offset s
  | .mspReadEvent x evSeq => Sys2Proof.Machine.execMspReadEvent x evSeq s
  | .mspSetLink x lanes mode => Sys2Proof.Machine.execMspSetLink x lanes mode s
  | .mspStatus x => Sys2Proof.Machine.execMspStatus x s
  | .mspReplyReady b => Sys2Proof.Machine.execMspReplyReady b s
  | .tickBoundary node => Sys2Proof.Machine.execTickBoundary node s
  | .tickMarker d p w offset => Sys2Proof.Machine.execTickMarker d p w offset s
  | .markerMissing d p => Sys2Proof.Machine.execMarkerMissing d p s
  | .reparentWaitEnd d => Sys2Proof.Machine.execReparentWaitEnd d s
  | .tickLock d => Sys2Proof.Machine.execTickLock d s
  | .holdoverLimit d => Sys2Proof.Machine.execHoldoverLimit d s
  | .tickClaimSend => Sys2Proof.Machine.execTickClaimSend s
  | .tickClaim d p w => Sys2Proof.Machine.execTickClaim d p w s
  | .masterTakeOffice => Sys2Proof.Machine.execMasterTakeOffice s
  | .delayProbePeriodic d p time => Sys2Proof.Machine.execDelayProbePeriodic d p time s
  | .flowWord d p w => Sys2Proof.Machine.execFlowWord d p w s
  | .ack d p w => Sys2Proof.Machine.execAck d p w s
  | .nak d p w => Sys2Proof.Machine.execNak d p w s
  | .stomp q w => Sys2Proof.Machine.execStomp q w s
  | .trainId d p w => Sys2Proof.Machine.execTrainId d p w s
  | .widthReq d p w => Sys2Proof.Machine.execWidthReq d p w s
  | .delayProbe d p w turnaround => Sys2Proof.Machine.execDelayProbe d p w turnaround s
  | .delayProbeReply d p w arrival => Sys2Proof.Machine.execDelayProbeReply d p w arrival s
  | .sweepStart d p w => Sys2Proof.Machine.execSweepStart d p w s
  | .sweepKeepalive d p w => Sys2Proof.Machine.execSweepKeepalive d p w s
  | .sweepPoint d p w => Sys2Proof.Machine.execSweepPoint d p w s
  | .sweepEnd d p w => Sys2Proof.Machine.execSweepEnd d p w s
  | .sweepAborted d p w => Sys2Proof.Machine.execSweepAborted d p w s
  | .sweepBusy d p w => Sys2Proof.Machine.execSweepBusy d p w s
  | .sweepKeepaliveSend d p => Sys2Proof.Machine.execSweepKeepaliveSend d p s
  | .sweepFarTimeout d p => Sys2Proof.Machine.execSweepFarTimeout d p s
  | .sweepPointDone d p errors => Sys2Proof.Machine.execSweepPointDone d p errors s
  | .dataBlock q seq l pos after => Sys2Proof.Machine.execDataBlock q seq l pos after s
  | .codewordUncorrectable q l => Sys2Proof.Machine.execCodewordUncorrectable q l s
  | .retryTimeout d p => Sys2Proof.Machine.execRetryTimeout d p s
  | .laneLoss d p lane => Sys2Proof.Machine.execLaneLoss d p lane s
  | .laneLock d p lane => Sys2Proof.Machine.execLaneLock d p lane s
  | .switchStart d p => Sys2Proof.Machine.execSwitchStart d p s
  | .switchComplete d p => Sys2Proof.Machine.execSwitchComplete d p s
  | .switchTimeout d p => Sys2Proof.Machine.execSwitchTimeout d p s
  | .linkFail d p => Sys2Proof.Machine.execLinkFail d p s
  | .trainBoundExpiry d p => Sys2Proof.Machine.execTrainBoundExpiry d p s
  | .farSignalDetect d p => Sys2Proof.Machine.execFarSignalDetect d p s
  | .trainComplete q found => Sys2Proof.Machine.execTrainComplete q found s
  | .linkHoldDone d p timeUp => Sys2Proof.Machine.execLinkHoldDone d p timeUp s
  | .caddyPresence c => Sys2Proof.Machine.execCaddyPresence c s
  | .caddyIdRead c eeprom => Sys2Proof.Machine.execCaddyIdRead c eeprom s
  | .caddyDomainBGood c => Sys2Proof.Machine.execCaddyDomainBGood c s
  | .caddyLeverOpen c => Sys2Proof.Machine.execCaddyLeverOpen c s
  | .caddyLeavingDone c timeUp => Sys2Proof.Machine.execCaddyLeavingDone c timeUp s
  | .caddyWithdrawn c => Sys2Proof.Machine.execCaddyWithdrawn c s
  | .caddyLeverClose c => Sys2Proof.Machine.execCaddyLeverClose c s
  | .caddyTempSample c temp status => Sys2Proof.Machine.execCaddyTempSample c temp status s
  | .packetIngress d p h a => Sys2Proof.Machine.execPacketIngress d p h a s
  | .spray d p h a => Sys2Proof.Machine.execSpray d p h a s
  | .circuitData d p h a => Sys2Proof.Machine.execCircuitData d p h a s
  | .posReq d p h a => Sys2Proof.Machine.execPosReq d p h a s
  | .notResidentConvert d id => Sys2Proof.Machine.execNotResidentConvert d id s
  | .posRsp d p h a => Sys2Proof.Machine.execPosRsp d p h a s
  | .echoNote d p h a => Sys2Proof.Machine.execEchoNote d p h a s
  | .contrib d p h a => Sys2Proof.Machine.execContrib d p h a s
  | .gatherIn d p h a => Sys2Proof.Machine.execGatherIn d p h a s
  | .blendPacket d p h a => Sys2Proof.Machine.execBlendPacket d p h a s
  | .blendAbort d p h a => Sys2Proof.Machine.execBlendAbort d p h a s
  | .diag d h a => Sys2Proof.Machine.execDiag d h a s
  | .mbxReq d p h a => Sys2Proof.Machine.execMbxReq d p h a s
  | .mbxRsp d p h a => Sys2Proof.Machine.execMbxRsp d p h a s
  | .mbxEvt d p h a => Sys2Proof.Machine.execMbxEvt d p h a s
  | .egressSelect d p ns => Sys2Proof.Machine.execEgressSelect d p ns s
  | .circuitSlotSend d p slot => Sys2Proof.Machine.execCircuitSlotSend d p slot s
  | .reachNoticeSend spine leaf => Sys2Proof.Machine.execReachNoticeSend spine leaf s
  | .noticeRepeat => Sys2Proof.Machine.execNoticeRepeat s
  | .collOutEffect d => Sys2Proof.Machine.execCollOutEffect d s
  | .routeFlipEffect d part => Sys2Proof.Machine.execRouteFlipEffect d part s
  | .routeRetire d part => Sys2Proof.Machine.execRouteRetire d part s
  | .leaseExpiry d circuit => Sys2Proof.Machine.execLeaseExpiry d circuit s
  | .gapTimeout d part src dst => Sys2Proof.Machine.execGapTimeout d part src dst s
  | .drainedEntry d part vc => Sys2Proof.Machine.execDrainedEntry d part vc s
  | .xonGrant d part vc => Sys2Proof.Machine.execXonGrant d part vc s
  | .xonIdleRevoke d p part vc => Sys2Proof.Machine.execXonIdleRevoke d p part vc s
  | .throttleEngage d p part vc => Sys2Proof.Machine.execThrottleEngage d p part vc s
  | .throttleEnd d p part vc => Sys2Proof.Machine.execThrottleEnd d p part vc s
  | .oversubWindowEnd d => Sys2Proof.Machine.execOversubWindowEnd d s
  | .blendStageStart d k place => Sys2Proof.Machine.execBlendStageStart d k place s
  | .pourTimeout d k place => Sys2Proof.Machine.execPourTimeout d k place s
  | .abortRecordExpiry d k => Sys2Proof.Machine.execAbortRecordExpiry d k s
  | .potZeroDone d => Sys2Proof.Machine.execPotZeroDone d s
  | .segmentZeroDone d => Sys2Proof.Machine.execSegmentZeroDone d s
  | .partOpenReady d part => Sys2Proof.Machine.execPartOpenReady d part s
  | .remapEffect d part => Sys2Proof.Machine.execRemapEffect d part s
  | .partFence d part => Sys2Proof.Machine.execPartFence d part s
  | .fenceDiscard d part => Sys2Proof.Machine.execFenceDiscard d part s
  | .diePowerLost d => Sys2Proof.Machine.execDiePowerLost d s
  | .eccError d site => Sys2Proof.Machine.execEccError d site s
  | .watchdogExpiry core code => Sys2Proof.Machine.execWatchdogExpiry core code s
  | .fc4Reset => Sys2Proof.Machine.execFc4Reset s
  | .tokenLapse => Sys2Proof.Machine.execTokenLapse s
  | .tokenClaimDecide => Sys2Proof.Machine.execTokenClaimDecide s
  | .eventRetransmit => Sys2Proof.Machine.execEventRetransmit s
  | .inputSwitchClose => Sys2Proof.Machine.execInputSwitchClose s
  | .bootImageCheck => Sys2Proof.Machine.execBootImageCheck s
  | .fuseCheck => Sys2Proof.Machine.execFuseCheck s
  | .fullServiceEntry => Sys2Proof.Machine.execFullServiceEntry s
  | .paceStep => Sys2Proof.Machine.execPaceStep s
  | .pwrTransitionDone => Sys2Proof.Machine.execPwrTransitionDone s
  | .busbarDropout => Sys2Proof.Machine.execBusbarDropout s
  | .alwaysOnLoss => Sys2Proof.Machine.execAlwaysOnLoss s
  | .sensorSample r => Sys2Proof.Machine.execSensorSample r s
  | .throttleCapStep => Sys2Proof.Machine.execThrottleCapStep s
  | .laneGroupShed d => Sys2Proof.Machine.execLaneGroupShed d s
  | .shutdownExecute => Sys2Proof.Machine.execShutdownExecute s
  | .gradeClear => Sys2Proof.Machine.execGradeClear s
  | .wake b => Sys2Proof.Machine.execWake b s
  | .xipMiss core addr => Sys2Proof.Machine.execXipMiss core addr s
  | .flashOpComplete => Sys2Proof.Machine.execFlashOpComplete s
  | .coreSleep core => Sys2Proof.Machine.execCoreSleep core s
  | .coreOff core => Sys2Proof.Machine.execCoreOff core s
  | .coreWake core => Sys2Proof.Machine.execCoreWake core s
  | .traceSync => Sys2Proof.Machine.execTraceSync s
  | .dieCorePowerGood d => Sys2Proof.Machine.execDieCorePowerGood d s
  | .laneGroupReturn => Sys2Proof.Machine.execLaneGroupReturn s
  | .throttleCapLift => Sys2Proof.Machine.execThrottleCapLift s

end Sys2Proof.Machine
end

