-- ==== Sys2Proof/Safety.lean ====
section
/-! DEFINITION. The terms in which statements about the block are made: what a request's answer writes and what it leaves, when a
request is accepted, and what a safe state is. -/

namespace Sys2Proof.Machine

/-- The state without what serving a request writes beside the command's own effect: what left the tray, the mailbox's slots, copies and
packets that wait for port 70, the FC4's counters, trace records not yet in the buffer, and the slot states of the MSP instances. -/
def State.bare (s : State) : State :=
  { s with
    out := [],
    mbx := { s.mbx with slots := [], copies := [], ctr := [], outbox := [] },
    trace := { s.trace with cores := [], lost := 0 },
    mspA := { s.mspA with slots := [], taken := [] },
    mspB := { s.mspB with slots := [], taken := [] } }

/-- The state without what the events that a command raises write: also the event queues. -/
def State.calm (s : State) : State := { s.bare with evs := { s.evs with queues := [], next := [], lost := [] } }

/-- The response to a request has left the tray. -/
def State.answered (s : State) (f : Frame) (op : Nat) (st : Status) (payload : List Byte) : Prop :=
  Out.resp f.chan f.slot (BitVec.ofNat 16 op) f.tag st s.tok.epoch payload ∈ s.out

/-- The FC4 serves a request: it listens, the frame is sound, it is no repeat, and it passes checks 3 to 9 of spec/11 Table 11-4. -/
def State.accepts (s : State) (c : Cmd) (f : Frame) : Bool :=
  s.hears f && f.magicOk && f.crcOk && (s.repeatOf f).isNone && (s.checkFrame c f).isNone && f.route == 0 &&
    (s.checkAuth c f).isNone

/-- Every byte memory of the tray is in canonical form: the trace buffer, the two flash banks and the request buffers of the two MSP
instances. -/
def State.memoriesWf (s : State) : Bool :=
  Mem.wf 0 s.trace.mem && Mem.wf 0xFF s.fw.bank0.mem && Mem.wf 0xFF s.fw.bank1.mem && Mem.wf 0 s.mspA.buf && Mem.wf 0 s.mspB.buf

/-- A safe state: its memories and the data caps of its bays are canonical, every event queue holds at most 256 events (R415), and
`GRADE` is 0 to 3 (spec/13 Table 13-4). -/
def State.safe (s : State) : Bool :=
  s.memoriesWf && (s.evs.queues.all fun e => decide (e.2.length ≤ 256)) && Map.wf s.pow.bayCap && decide (s.pow.grade.toNat ≤ 3)

/-- The state after a request that answers `st`: an accepted one is noted (R392, R401). -/
def State.noted (s : State) (f : Frame) (st : Status) : State := if st = .ok ∨ st = .accepted then s.noteAccepted f else s

/-- The answer `r` to a request: a next state that is `u` with the request noted, beside what serving writes, and the response has
been sent. -/
def Answers (r : Host.Outcome State Fault Refusal) (u : State) (f : Frame) (op : Nat) (st : Status) (payload : List Byte) : Prop :=
  ∃ t, r = .next t ∧ t.bare = (u.noted f st).bare ∧ t.answered f op st payload

/-- What a command with a die mask leaves of a die: `act` decides for a die of the mask that is powered. -/
def maskDie (mask : Byte) (act : Die → Except Status Die) (d : DieId) (x : Die) : Die :=
  if mask.getLsbD d.val && x.on then (match act x with | .ok y => y | .error _ => x) else x

/-- The status that a command with a die mask reports of a die. -/
def maskStatus (mask : Byte) (act : Die → Except Status Die) (d : DieId) (x : Die) : Status :=
  if mask.getLsbD d.val then (if x.on then (match act x with | .ok _ => .ok | .error st => st) else .dieOff) else .ok

/-- Die `d` is one that a command with a die mask reaches: the mask names it and it is powered (R427, R428). -/
def State.reached (s : State) (mask : Byte) (d : DieId) : Bool := mask.getLsbD d.val && (s.die d).on

/-- The tray with every die that a mask reaches changed by `g`, and nothing else. -/
def State.onMask (s : State) (mask : Byte) (g : DieId → Die → Die) : State :=
  let one (d : DieId) : Die := if s.reached mask d then g d (s.die d) else s.die d
  { s with q0 := one 0, q1 := one 1, q2 := one 2, q3 := one 3 }

/-- `DIE_RESULT` when every die of the mask that is powered answers OK (R428). -/
def State.maskOk (s : State) (mask : Byte) : List Byte :=
  dieResult (allDieIds.map fun d => if mask.getLsbD d.val && !(s.die d).on then .dieOff else .ok)

/-- The state in which the checks of a request run: `mgr.key` has spent the nonce of its channel (R402). -/
def State.presented (s : State) (i : Instr) : State := match i with | .mgrKey f _ _ => s.spendNonce f | _ => s

/-- The command of Tables 12-1, 13-1 and 13-5 that a request carries, with its frame; none for the rows that are no request to this
tray's FC4. -/
def State.request (s : State) (i : Instr) : Option (Frame × Cmd) :=
  let read (f : Frame) (op len : Nat) : Option (Frame × Cmd) := some (f, { op := op, change := false, len := len })
  let chg (f : Frame) (op len : Nat) : Option (Frame × Cmd) := some (f, { op := op, change := true, len := len })
  let chgP (f : Frame) (op len : Nat) (p : Byte) : Option (Frame × Cmd) :=
    some (f, { op := op, change := true, len := len, part := some p })
  let cap (f : Frame) (op len : Nat) (p : Byte) (change : Bool) (k : Nat) : Option (Frame × Cmd) :=
    some (f, { op := op, change := change, len := len, part := some p, cap := some k })
  match i with
  | .idRead f => some (f, { op := 0x0101, change := false, cap := some 0, len := 0, unsignedOk := true, identity := true })
  | .idCaddy f _ => some (f, { op := 0x0102, change := false, cap := some 0, len := 4, unsignedOk := true, identity := true })
  | .idWrite f _ _ _ => chg f 0x0105 4
  | .idIdentify f _ => chg f 0x0106 4
  | .bootStatus f => read f 0x0201 0
  | .bootReady f => chg f 0x0202 0
  | .tickConfig f _ _ => chg f 0x0210 4
  | .tickStatus f => read f 0x0211 0
  | .linkStatus f _ _ _ => read f 0x0301 4
  | .linkConfigHold f _ _ => chg f 0x0302 4
  | .linkConfigRelease f _ _ => chg f 0x0302 4
  | .linkConfigDisable f _ _ => chg f 0x0302 4
  | .linkRetrainWiden f _ _ => chg f 0x0303 4
  | .linkRetrainFull f _ _ => chg f 0x0303 4
  | .linkRetrainNarrow f _ _ _ => chg f 0x0303 4
  | .linkPortmap f _ _ => chg f 0x0304 16
  | .linkSweep f _ => chg f 0x0310 16
  | .linkSweepResult f _ _ _ _ _ _ => read f 0x0311 8
  | .routeConfig f p _ _ _ => chgP f 0x0401 8 p
  | .routeStage f p _ _ l => chgP f 0x0410 (8 + 12 * l.length) p
  | .routeSeal f p _ _ => chgP f 0x0411 4 p
  | .routeDiscard f p _ _ => chgP f 0x0411 4 p
  | .routeFlip f p _ _ => chgP f 0x0412 16 p
  | .routeStatus f _ => read f 0x0413 4
  | .routeRead f _ _ _ _ => read f 0x0414 8
  | .routeOwner f p _ _ _ => chgP f 0x0415 8 p
  | .routeReachRead f _ _ => read f 0x0420 8
  | .routeReachWrite f _ _ _ => chg f 0x0420 8
  | .partOpen f p _ => chgP f 0x0501 4 p
  | .partClose f p _ => chgP f 0x0502 4 p
  | .partGrantSeg f p _ _ => chgP f 0x0503 12 p
  | .partReturnSeg f p _ _ => chgP f 0x0503 12 p
  | .partDirRange f p _ _ _ => chgP f 0x0503 12 p
  | .partPortsAssign f p _ _ => chgP f 0x0504 4 p
  | .partPortsUnassign f p _ _ => chgP f 0x0504 4 p
  | .partRestart f p _ => chgP f 0x0505 4 p
  | .partConfig f p _ _ _ _ _ _ _ => chgP f 0x0506 24 p
  | .partStatus f _ => read f 0x0507 4
  | .partQuiesce f p _ m => some (f, { op := 0x0520, change := true, cap := some 1, len := 4, vcOk := vcsInband m, part := some p })
  | .partResume f p _ m => some (f, { op := 0x0521, change := true, cap := some 1, len := 4, vcOk := vcsInband m, part := some p })
  | .mgrNonce f => some (f, { op := 0x0230, change := false, len := 0, unsignedOk := true })
  | .mgrKey f _ _ => some (f, { op := 0x0231, change := true, len := 116, noToken := true, ownAuth := true })
  | .mgrClaim f _ => some (f, { op := 0x0232, change := true, len := 8, noToken := true })
  | .mgrBeat f => chg f 0x0233 0
  | .mgrRelease f => chg f 0x0234 0
  | .mgrStatus f => read f 0x0235 0
  | .grpOpen f p _ _ _ _ => cap f 0x0601 152 p true 1
  | .grpClose f p _ _ => cap f 0x0602 4 p true 1
  | .grpStatus f p _ _ => cap f 0x0603 4 p false 0
  | .circSetup f p _ _ _ _ => chgP f 0x0701 24 p
  | .circRenew f p _ _ _ => chgP f 0x0702 8 p
  | .circRelease f p _ _ => chgP f 0x0703 4 p
  | .circRead f p _ _ _ => some (f, { op := 0x0704, change := false, len := 8, part := some p })
  | .dirSeq f p _ _ _ => cap f 0x0801 20 p true 2
  | .dirWrite f p _ l => cap f 0x0802 (8 + 16 * l.length) p true 2
  | .dirRangeRefresh f p _ _ _ _ _ => cap f 0x0803 16 p true 2
  | .dirRangeEvict f p _ _ _ _ => cap f 0x0803 16 p true 2
  | .dirRead f p _ _ _ _ => cap f 0x0804 12 p false 0
  | .congConfig f p _ _ m _ _ _ =>
    some (f, { op := 0x0901, change := m.getLsbD 0 || m.getLsbD 1 || m.getLsbD 2, len := 16, part := some p })
  | .pwrStateT0 f => chg f 0x0A01 4
  | .pwrStateT1 f => chg f 0x0A01 4
  | .pwrStateT2 f => chg f 0x0A01 4
  | .pwrStateT3 f => chg f 0x0A01 4
  | .pwrRamp f _ _ _ => chg f 0x0A02 8
  | .pwrStatus f => read f 0x0A03 0
  | .faultRemap f p _ _ _ _ _ => chgP f 0x0B01 24 p
  | .faultAlias f p _ _ _ => some (f, { op := 0x0B02, change := false, len := 8, part := some p })
  | .ctrRead f l => some (f, { op := 0x0C01, change := false, cap := some 0, len := 4 + 4 * l.length })
  | .traceRead f _ _ => read f 0x0C20 8
  | .diagRead f _ _ _ _ => chg f 0x0C30 12
  | .diagWrite f _ _ _ l => chg f 0x0C31 (12 + 4 * l.length)
  | .diagLoop f _ _ _ _ => chg f 0x0C32 8
  | .evtAck f _ => read f 0x0C40 4
  | .evtSubscribe f p => cap f 0x0C41 4 p true 3
  | .evtUnsubscribe f p => cap f 0x0C41 4 p true 3
  | .fuseRead f => read f 0x0D01 0
  | .fuseKeyProgram f _ _ =>
    some (f, { op := 0x0D02, change := true, len := 52, unsignedOk := s.noKeys && (f.chan == .mspA || f.chan == .mspB) })
  | .fuseKeyRevoke f _ => chg f 0x0D03 4
  | .fuseRollbackAdvance f _ => chg f 0x0D04 4
  | .fusePrivilegeGrant f _ _ => chg f 0x0D05 4
  | .fusePrivilegeDeny f _ _ => chg f 0x0D05 4
  | .fuseDebugUnlock f => chg f 0x0D06 4
  | .fuseDebugLock f => chg f 0x0D06 4
  | .fuseAudit f _ _ => read f 0x0D07 4
  | .fwWrite f _ l => chg f 0x0E01 (8 + l.length)
  | .fwVerify f => chg f 0x0E02 4
  | .fwActivateNextReset f => chg f 0x0E03 4
  | .fwActivateNow f => chg f 0x0E03 4
  | .fwStatus f => read f 0x0E04 0
  | _ => none

end Sys2Proof.Machine
end

