-- ==== Sys2Proof/Certificates/Slice0/Obligations.lean ====
section
/-! DEFINITION. The statements for the provers. Each docstring says what the statement says; OBLIGATIONS.json cites the rules of
spec/ that it rests on. -/

open Sys2Proof Sys2Proof.Machine


/-- A step runs the command at the front of the queue on the state with the queue's rest; an empty queue idles. For every state
whose queue begins with the command c, step is exec of c on the state whose queue is the rest; with an empty queue step answers
the same state (the block idles: the model's choice, log entry 3). -/
def Obligations.StepRunsTheFrontCommand : Prop :=
  (∀ (s : State) (c : Instr) (rest : List Instr), s.pending = c :: rest → step s = exec c { s with pending := rest }) ∧
    ∀ s : State, s.pending = [] → step s = .next s

/-- A request is answered by the first check of Table 11-4 that fails, and nothing else is done. For every request row: when the FC4
listens and the frame came whole (R391), the frame is sound (checks 1 and 2) and is no repeat, the checks of Table 11-4 are made in
order (version, slot, opcode, length, ROUTE, then key and token on a management channel, or privilege and partition in-band), and
the first that fails answers its status with an empty payload and nothing else happens. Where ROUTE and a SLOT above 15 are checked,
and with which status, is the model's reading (log entries 20 and 21). -/
def Obligations.RequestsAreCheckedInOrder : Prop :=
  ∀ (s : State) (i : Instr) (f : Frame) (c : Cmd), s.request i = some (f, c) → s.hears f = true → f.magicOk = true →
    f.crcOk = true → s.repeatOf f = none →
    let taken (k : Nat) : Bool := (Map.look s.mbx.slots k).isSome
    let signed := f.cred != 0xFF
    let keyed := signed && !c.ownAuth
    let cached := Map.look s.tok.keys f.cred.toNat
    let token := c.change && !c.noToken && !(s.holder.isNone && s.noKeys && c.unsignedOk)
    let slot : List (Bool × Status) := match f.chan with
      | .ib d => [((List.range 16).all fun k => taken (64 + 16 * d.val + k), .busy)]
      | _ => [(decide (15 < f.slot.toNat), .badField), (taken (16 * chanNum f.chan + f.slot.toNat), .slotBusy)]
    let auth : List (Bool × Status) := match f.chan with
      | .ib d =>
        [(!(c.cap.any fun k => s.fuseBit (1784 + k) && !s.fuseBit (1792 + k)), .notPrivileged), (!c.vcOk, .notPrivileged),
         (!c.identity && (s.originPart f d).isNone, .notPrivileged),
         (!c.identity && c.part.any fun q => s.originPart f d != some q.toNat, .partMismatch)]
      | _ =>
        [(!signed && !c.ownAuth && !c.unsignedOk, .noCredential), (keyed && s.noKeys && c.change, .noCredential),
         (keyed && (decide (3 < f.cred.toNat) || s.keyState f.cred.toNat == 0), .keyUnknown),
         (keyed && s.keyState f.cred.toNat == 2, .slotRevoked), (keyed && cached.isNone, .keyUnknown),
         (keyed && !cached.any (verifies f), .badSignature),
         (keyed && (Map.look s.tok.seqs f.cred.toNat).any fun q => decide (f.cmdSeq.toNat ≤ q.toNat), .replayed),
         (token && !(s.holder.any fun h => f.cred.toNat == h.val), .notTokenHolder),
         (token && f.tokenEpoch != s.tok.epoch, .staleToken)]
    let checks : List (Bool × Status) :=
      [(f.version != 3 && !c.identity, .badVersion)] ++ slot ++
        [(s.boot.romOnly && (!romOps.contains c.op || !(f.chan == .mspA || f.chan == .mspB)), .unknownOpcode),
         (f.payloadLen.toNat != c.len + (if f.cred = 0xFF then 0 else 96), .badLength), (f.route != 0, .badRoute)] ++ auth
    ∀ e, checks.find? (·.1) = some e → exec i s = .next ((s.presented i).fresh.answer f c.op e.2 [])

/-- A frame that fails check 1 or 2 is counted and dropped; a repeated request gets the copy of its response again. For every
request row: a frame with a wrong MAGIC or CRC is only counted; a request that repeats the slot, TAG and CMD_SEQ of the slot's
last response receives that response's copy again, on an Ethernet channel as a datagram, and, but for the MSP slot state, changes nothing;
an FC4 that does not listen, or that has not received the whole of a fragmented datagram of at most 4,160 B (R391), does nothing. -/
def Obligations.UnsoundFramesAndRepeats : Prop :=
  ∀ (s : State) (i : Instr) (f : Frame) (c : Cmd), s.request i = some (f, c) →
    (s.hears f = false → exec i s = .next s.fresh) ∧
    (s.hears f = true → f.magicOk = false → exec i s = .next (s.fresh.countFc (ctrKey 0x20 0x7F 0 0 0))) ∧
    (s.hears f = true → f.magicOk = true → f.crcOk = false → exec i s = .next (s.fresh.countFc (ctrKey 0x20 0x7F 0 0 1))) ∧
    ∀ r, s.hears f = true → f.magicOk = true → f.crcOk = true → s.repeatOf f = some r →
      r.tag = f.tag ∧ r.cmdSeq = f.cmdSeq ∧
        ∃ t, exec i s = .next t ∧ t.bare = s.bare ∧ t.mbx = s.mbx ∧ t.trace = s.trace ∧
          t.out = .copy f.chan f.slot r.op r.tag r.status r.payload :: linkOut f.chan f.addr r.payload.length

/-- After a management request is answered, the same frame again receives the copy and is not carried out a second time. For
every request row but mgr.claim (whose response comes later) and every state: when the request arrives on a management channel
in a free slot 0 to 15, sound and no repeat, then in the next state the same frame is a repeat of the slot's response, and any
request row carrying it sends exactly that copy and leaves the state as it is. -/
def Obligations.NoRequestIsCarriedOutTwice : Prop :=
  ∀ (s t : State) (i j : Instr) (f : Frame) (c c' : Cmd), s.request i = some (f, c) → (∀ e, i ≠ .mgrClaim f e) →
    (∀ d, f.chan ≠ .ib d) → f.slot.toNat ≤ 15 → Map.look s.mbx.slots (slotKey f.chan f.slot) = none → s.hears f = true →
    f.magicOk = true → f.crcOk = true → exec i s = .next t → t.request j = some (f, c') → t.hears f = true →
      ∃ r u, t.repeatOf f = some r ∧ exec j t = .next u ∧ u.bare = t.bare ∧
        u.out = .copy f.chan f.slot r.op r.tag r.status r.payload :: linkOut f.chan f.addr r.payload.length

/-- Sending a response writes the response, the copy of its own slot and one trace record. For every frame, status and payload:
after the response, everything but the mailbox slots, copies and outgoing packets, the FC4 counters, the trace cores and the MSP slot
states is as before; what has left the tray is the response with the token epoch in force and, on an Ethernet channel, its datagram;
an in-band response waits as one mailbox packet for port 70 of the die and port it came from, and no other response does; unless the
channel is in-band, the slot busy or above 15, the slot's copy is this response; every other slot and copy is unchanged. -/
def Obligations.AnAnswerWritesOnlyItsSlot : Prop :=
  ∀ (s : State) (f : Frame) (op : Nat) (st : Status) (p : List Byte),
    (s.answer f op st p).bare = s.bare ∧
    (s.answer f op st p).out =
      s.out ++ .resp f.chan f.slot (BitVec.ofNat 16 op) f.tag st s.tok.epoch p :: linkOut f.chan f.addr p.length ∧
    (∀ d, f.chan = .ib d → ∃ m, (s.answer f op st p).mbx.outbox = s.mbx.outbox ++ [m] ∧ m.d = d ∧ m.port = f.port.val ∧
      m.type = 2 ∧ m.tag = some f.tag) ∧
    ((∀ d, f.chan ≠ .ib d) → (s.answer f op st p).mbx.outbox = s.mbx.outbox) ∧
    (endsSlot f st = true → Map.look (s.answer f op st p).mbx.copies (slotKey f.chan f.slot) =
      some { op := BitVec.ofNat 16 op, tag := f.tag, cmdSeq := f.cmdSeq, part := f.hpart, epoch := s.tok.epoch, status := st,
             payload := p }) ∧
    (endsSlot f st = false → (s.answer f op st p).mbx.slots = s.mbx.slots ∧ (s.answer f op st p).mbx.copies = s.mbx.copies) ∧
    (∀ k, k ≠ slotKey f.chan f.slot → Map.look (s.answer f op st p).mbx.slots k = Map.look s.mbx.slots k ∧
      Map.look (s.answer f op st p).mbx.copies k = Map.look s.mbx.copies k) ∧
    ∀ k, k ≠ 0 → (s.answer f op st p).core k = s.core k

/-- id.read, id.caddy, boot.status and tick.status answer their blocks and change nothing. Accepted identity and status reads
complete: id.read answers the 64 bytes of Table 12-2, id.caddy the 220 bytes of its bay (BAY 0 to 7), boot.status the 16 bytes
of Table 12-4, tick.status the 104 bytes of Table 12-5, each of its stated length; everything else is unchanged. Identity fields
while no record is in force and the MAC addresses are free values. -/
def Obligations.IdentityReadsAnswer : Prop :=
  ∀ (s : State) (f : Frame),
    (s.accepts { op := 0x0101, change := false, cap := some 0, len := 0, unsignedOk := true, identity := true } f = true →
      Answers (exec (.idRead f) s) s f 0x0101 .ok s.identity ∧ s.identity.length = 64) ∧
    (∀ bay : BayId, s.accepts { op := 0x0102, change := false, cap := some 0, len := 4, unsignedOk := true, identity := true } f = true →
      Answers (exec (.idCaddy f (BitVec.ofNat 8 bay.val)) s) s f 0x0102 .ok ((s.bay bay).block (BitVec.ofNat 8 bay.val)) ∧
        ((s.bay bay).block (BitVec.ofNat 8 bay.val)).length = 220) ∧
    (s.accepts { op := 0x0201, change := false, len := 0 } f = true →
      Answers (exec (.bootStatus f) s) s f 0x0201 .ok s.bootBlock ∧ s.bootBlock.length = 16) ∧
    (s.accepts { op := 0x0211, change := false, len := 0 } f = true →
      Answers (exec (.tickStatus f) s) s f 0x0211 .ok s.tickBlock ∧ s.tickBlock.length = 104)

/-- id.write, id.identify, boot.ready and tick.config take effect when accepted. Accepted and with fields in range: id.write
makes the record of index 0 when no bit is programmed and answers OK (R432), and otherwise begins the fuse operation of the
lowest clear bit of ID_REWRITE and answers ACCEPTED with the new index and ID_REWRITES_LEFT; id.identify sets the indicator from
the next boundary; boot.ready sets bits 2 and 3 of FULL_COND; tick.config sets priority and stored period, takes a TICK_FAULT
die back to UNLOCKED and gives the period to UNLOCKED dies without a parent. Everything else is unchanged. That id.write OK is
answered before the flash write is over, and id.identify needs stage MANAGER_WAIT, are the model's readings (log entry 22). -/
def Obligations.IdentityAndBringUpChangesComplete : Prop :=
  ∀ (s : State) (f : Frame),
    (∀ role rack slot : Byte, s.accepts { op := 0x0105, change := true, len := 4 } f = true →
      (role = 0 ∧ rack.toNat ≤ 15 ∧ slot.toNat ≤ 3 ∨ role = 1 ∧ rack.toNat ≤ 1 ∧ slot.toNat ≤ 15) →
      (∀ r, s.boot.ident = some r → ¬ (r.spine = (role == 1) ∧ r.rack = rack ∧ r.slot = slot)) → s.fuse.op = none →
      (s.idIndex = 0 → Map.look s.boot.records 0 = none →
        let r : IdRec := { index := 0, spine := role == 1, rack := rack, slot := slot }
        Answers (exec (.idWrite f role rack slot) s)
          (({ s with boot := { s.boot with records := Map.put s.boot.records 0 r } } : State).flashOp [r.record]) f 0x0105 .ok
          [0, 16, 0, 0]) ∧
      ∀ b, ¬ (s.idIndex = 0 ∧ Map.look s.boot.records 0 = none) → s.fuseNext 1760 16 = some b → s.fuse.log.length ≤ 510 →
        let k := s.idIndex + 1
        let u := oneBit 4 b (le 1 k)
        let t := s.audit 1 u f.cred (s.tok.epoch.setWidth 8)
        Answers (exec (.idWrite f role rack slot) s)
          { t with
            fuse := { t.fuse with
              op := some { uses := [u], cred := f.cred, epoch := s.tok.epoch.setWidth 8,
                           ident := some { index := k, spine := role == 1, rack := rack, slot := slot } } } }
          f 0x0105 .accepted [BitVec.ofNat 8 k, BitVec.ofNat 8 (16 - k), 0, 0]) ∧
    (∀ on : Bool, s.accepts { op := 0x0106, change := true, len := 4 } f = true → 3 ≤ s.boot.stage.code →
      Answers (exec (.idIdentify f (if on then 1 else 0)) s)
        { s with boot := { s.boot with identifyNext := some (s.boot.now + 1, on) } } f 0x0106 .ok []) ∧
    (s.accepts { op := 0x0202, change := true, len := 0 } f = true →
      Answers (exec (.bootReady f) s) { s with boot := { s.boot with ready := true } } f 0x0202 .ok
        [({ s with boot := { s.boot with ready := true } } : State).fullCond, 0, 0, 0]) ∧
    ∀ priority period : Byte, s.accepts { op := 0x0210, change := true, len := 4 } f = true →
      (period.toNat ≤ 2 ∨ period = 0xFF) → (s.isLeaf = true → priority = 0) →
      (period = 0xFF ∨ period = s.elect.period.setWidth 8 ∨
        ∀ d, (s.die d).on = true → (s.die d).tick.state ≠ .locked ∧ (s.die d).tick.state ≠ .holdover) →
      let per := if period = 0xFF then s.elect.period else period.setWidth 2
      Answers (exec (.tickConfig f priority period) s)
        (({ s with elect := { s.elect with priority := priority, period := per } } : State).allDies fun x =>
          let x := x.leaveTickFault
          if x.tick.state = .unlocked ∧ x.tick.parent = none then { x with tick := { x.tick with period := per } } else x)
        f 0x0210 .ok []

/-- mgr.nonce, mgr.key, mgr.claim, mgr.beat, mgr.release and mgr.status take effect when accepted. mgr.nonce answers a fresh
nonce (a free value) and keeps it for its channel. mgr.key under an ACTIVE slot, with the channel's nonce, a key whose hash is
the slot's and a signature under that key, caches the key, stores it in flash where the stored key differs, takes its CMD_SEQ as
the slot's last, spends the nonce, and raises fuse.debug_open while the FC4 is debug-open. mgr.claim above the epoch, while the
token is free and no claim of an earlier tick is undecided, is held undecided: no response is sent and its slot stays occupied.
mgr.beat moves the lapse tick to three heartbeat periods after now. mgr.release frees the token from the next boundary.
mgr.status answers holder, epoch, lapse tick and last beat. -/
def Obligations.ManagerKeysAndTokenComplete : Prop :=
  ∀ (s : State) (f : Frame),
    (s.accepts { op := 0x0230, change := false, len := 0, unsignedOk := true } f = true →
      Answers (exec (.mgrNonce f) s)
        { s with free := s.free + 1,
                 tok := { s.tok with nonces := Map.put s.tok.nonces (chanNum f.chan) (Config.nonce s.free) } }
        f 0x0230 .ok (le 16 (Config.nonce s.free).toNat)) ∧
    (∀ (nonce : BitVec 128) (key : PubKey),
      s.accepts { op := 0x0231, change := true, len := 116, noToken := true, ownAuth := true } f = true →
      f.cred.toNat ≤ 3 → s.keyState f.cred.toNat = 1 → Map.look s.tok.nonces (chanNum f.chan) = some nonce →
      keyHashOf key = s.keyHash f.cred.toNat → verifies f key = true →
      let k := f.cred.toNat
      let t : State := { s with tok := { s.tok with
        keys := Map.put s.tok.keys k key, seqs := Map.put s.tok.seqs k f.cmdSeq, store := Map.put s.tok.store k key,
        nonces := Map.rem s.tok.nonces (chanNum f.chan) } }
      let u : State := if Map.look s.tok.store k = some key then t else t.flashOp [t.keyRecord]
      Answers (exec (.mgrKey f nonce key) s) (if s.debugLocked then u else u.raiseTray 0x0D81 0 []) f 0x0231 .ok []) ∧
    (∀ epoch : BitVec 32, s.accepts { op := 0x0232, change := true, len := 8, noToken := true } f = true →
      s.holder = none → s.tok.epoch.toNat < epoch.toNat → (∀ c ∈ s.tok.claims, c.tick = s.boot.now) →
      ∃ t, exec (.mgrClaim f epoch) s = .next t ∧ t.out = [] ∧ (Map.look t.mbx.slots (slotKey f.chan f.slot)).isSome = true ∧
        t.bare = (({ s with tok := { s.tok with claims := s.tok.claims ++
          [{ f := f, key := f.cred.toNat, epoch := epoch, tick := s.boot.now }] } } : State).noteAccepted f).bare) ∧
    (s.accepts { op := 0x0233, change := true, len := 0 } f = true →
      let u : State := { s with tok := { s.tok with lapse := s.boot.now + BitVec.ofNat 48 (3 * s.hb), lastBeat := s.boot.now } }
      Answers (exec (.mgrBeat f) s) u f 0x0233 .ok u.tokenBlock) ∧
    (s.accepts { op := 0x0234, change := true, len := 0 } f = true →
      Answers (exec (.mgrRelease f) s) { s with tok := { s.tok with release := some (s.boot.now + 1) } } f 0x0234 .ok []) ∧
    (s.accepts { op := 0x0235, change := false, len := 0 } f = true →
      Answers (exec (.mgrStatus f) s) s f 0x0235 .ok (s.tokenBlock ++ le 8 s.tok.lastBeat.toNat))

/-- The best claim of the previous tick wins the token; a token whose lapse tick is reached is free. Of the claims accepted in
earlier ticks, the decision gives the token to one that no other beats: none has a greater CLAIM_EPOCH, and none with the same
epoch has a lower key slot; it holds the token with its epoch and a lapse tick three heartbeat periods on, the claims of this
tick stay undecided, and the winner's OK and every other claim's LOST_RACE are sent. A held token whose lapse tick is reached
becomes free and mgr.token_lapsed is raised. -/
def Obligations.TokenIsDecidedAndLapses : Prop :=
  ∀ s : State,
    (∀ c ∈ s.tok.claims, c.tick ≠ s.boot.now → (∀ c ∈ s.tok.claims, c.key < 4) →
      ∃ t w, exec .tokenClaimDecide s = .next t ∧ w ∈ s.tok.claims ∧ w.tick ≠ s.boot.now ∧
        (∀ e ∈ s.tok.claims, e.tick ≠ s.boot.now →
          e.epoch.toNat < w.epoch.toNat ∨ e.epoch = w.epoch ∧ w.key ≤ e.key) ∧
        t.tok.holder.map (·.val) = some w.key ∧ t.tok.epoch = w.epoch ∧
        t.tok.lapse = s.boot.now + BitVec.ofNat 48 (3 * s.hb) ∧ t.tok.release = none ∧
        t.tok.claims = s.tok.claims.filter (fun e => e.tick == s.boot.now) ∧ t.tok.keys = s.tok.keys ∧ t.tok.seqs = s.tok.seqs ∧
        (∀ e ∈ s.tok.claims, e.tick ≠ s.boot.now →
          Out.resp e.f.chan e.f.slot 0x0232 e.f.tag (if e = w then .ok else .lostRace) w.epoch
            (({ s with tok := t.tok } : State).tokenBlock) ∈ t.out) ∧
        t.q0 = s.q0 ∧ t.q1 = s.q1 ∧ t.q2 = s.q2 ∧ t.q3 = s.q3 ∧ t.fuse = s.fuse ∧ t.pow = s.pow) ∧
    ∀ h, s.tok.holder = some h → reached s.boot.now s.tok.lapse = true →
      exec .tokenLapse s = .next (({ s.fresh with tok := { s.tok with holder := none, release := none } } : State).raiseTray
        0x0285 0 ([BitVec.ofNat 8 h.val, 0, 0, 0] ++ le 4 s.tok.epoch.toNat))

/-- The fabric and partition reads answer their blocks and change nothing. Accepted, with fields in range and the die of a one-
die read powered: link.status, link.sweep.result of a kept sweep, route.status, route.read, route.reach with OP 0 and
part.status answer the records the tables lay out, and everything else is unchanged. The tray-wide ones answer zeros for a die
without power. -/
def Obligations.StatusReadsAnswer : Prop :=
  ∀ (s : State) (f : Frame) (d : DieId),
    (∀ a n : Byte, s.accepts { op := 0x0301, change := false, len := 4 } f = true → 1 ≤ n.toNat → a.toNat + n.toNat ≤ 72 →
      (s.die d).on = true →
      Answers (exec (.linkStatus f (BitVec.ofNat 8 d.val) a n) s) s f 0x0301 .ok
        ([BitVec.ofNat 8 d.val, a, n, 0] ++ (List.range n.toNat).flatMap fun i => ((s.die d).port (a.toNat + i)).record)) ∧
    (∀ (die port id lane : Byte) (first count : BitVec 16) (r : SweepRec),
      s.accepts { op := 0x0311, change := false, len := 8 } f = true →
      s.sweeps.find? (fun r => r.req.die == die && r.req.port == port && r.req.sweepId == id) = some r → lane.toNat ≤ 3 →
      1 ≤ count.toNat → count.toNat ≤ 1024 → first.toNat + count.toNat ≤ 4096 →
      Answers (exec (.linkSweepResult f die port id lane first count) s) s f 0x0311 .ok
        ([r.result, 0] ++ le 2 r.done ++ [r.req.die, r.req.port, r.req.lanes, r.req.side, r.req.sweepId, r.req.phaseMin,
            r.req.phaseMax, r.req.phaseStep, r.req.voffMin, r.req.voffMax, r.req.voffStep, 0] ++
          (List.range count.toNat).flatMap fun i => le 2 (Map.lookD r.counts (4096 * lane.toNat + first.toNat + i) 0).toNat)) ∧
    (∀ part : Byte, s.accepts { op := 0x0413, change := false, len := 4 } f = true → part.toNat ≤ 15 →
      Answers (exec (.routeStatus f part) s) s f 0x0413 .ok (allDieIds.flatMap fun d => (s.die d).routeRecord part.toNat)) ∧
    (∀ (v : Bool) (a n : BitVec 16), s.accepts { op := 0x0414, change := false, len := 8 } f = true → 1 ≤ n.toNat →
      n.toNat ≤ 256 → a.toNat + n.toNat ≤ 2048 → (s.die d).on = true →
      Answers (exec (.routeRead f (BitVec.ofNat 8 d.val) (if v then 1 else 0) a n) s) s f 0x0414 .ok
        ((List.range n.toNat).flatMap fun i => le 8 ((s.die d).tab.route v (a.toNat + i)).toNat)) ∧
    (∀ mask leaf : Byte, s.accepts { op := 0x0420, change := false, len := 8 } f = true → leaf.toNat ≤ 63 →
      badMask mask = false → s.isSpine = false →
      Answers (exec (.routeReachRead f mask leaf) s) s f 0x0420 .ok (s.maskOk mask ++ s.reachBlock leaf.toNat)) ∧
    ∀ part : Byte, s.accepts { op := 0x0507, change := false, len := 4 } f = true → part.toNat ≤ 15 →
      Answers (exec (.partStatus f part) s) s f 0x0507 .ok (allDieIds.flatMap fun d => (s.die d).partRecord part.toNat)

/-- The service reads answer their blocks and change nothing. Accepted, with fields in range: pwr.status, ctr.read of 1 to 64
counters, trace.read within the buffer, fuse.read, fuse.audit of 1 to 63 records and fw.status answer what their tables lay out
and change nothing; grp.status, circ.read, dir.read and fault.alias answer for one powered die and change nothing; diag.read
answers COUNT words, each a free value, and changes nothing but the index of free values. -/
def Obligations.ServiceReadsAnswer : Prop :=
  ∀ (s : State) (f : Frame) (d : DieId),
    (s.accepts { op := 0x0A03, change := false, len := 0 } f = true →
      Answers (exec (.pwrStatus f) s) s f 0x0A03 .ok s.powerBlock ∧ s.powerBlock.length = 64) ∧
    (∀ ids : List (BitVec 32), s.accepts { op := 0x0C01, change := false, cap := some 0, len := 4 + 4 * ids.length } f = true →
      1 ≤ ids.length → ids.length ≤ 64 →
      Answers (exec (.ctrRead f ids) s) s f 0x0C01 .ok (ids.flatMap fun i => s.ctrRecord f i)) ∧
    (∀ (a : BitVec 32) (n : BitVec 16), s.accepts { op := 0x0C20, change := false, len := 8 } f = true → a.toNat ≤ 1048575 →
      1 ≤ n.toNat → n.toNat ≤ 3952 →
      Answers (exec (.traceRead f a n) s) s f 0x0C20 .ok (s.trace.block a.toNat n.toNat)) ∧
    (s.accepts { op := 0x0D01, change := false, len := 0 } f = true →
      Answers (exec (.fuseRead f) s) s f 0x0D01 .ok (le 512 s.fuse.bits.toNat)) ∧
    (∀ a n : BitVec 16, s.accepts { op := 0x0D07, change := false, len := 4 } f = true → 1 ≤ n.toNat → n.toNat ≤ 63 →
      Answers (exec (.fuseAudit f a n) s) s f 0x0D07 .ok
        (le 2 s.fuse.log.length ++ [0, 0] ++ ((s.fuse.log.drop a.toNat).take n.toNat).flatMap AuditRec.bytes)) ∧
    (s.accepts { op := 0x0E04, change := false, len := 0 } f = true →
      Answers (exec (.fwStatus f) s) s f 0x0E04 .ok s.fwBlock ∧ s.fwBlock.length = 32) ∧
    (∀ (part : Byte) (g : BitVec 16),
      s.accepts { op := 0x0603, change := false, cap := some 0, len := 4, part := some part } f = true → part.toNat ≤ 15 →
      (s.die d).on = true →
      Answers (exec (.grpStatus f part (BitVec.ofNat 8 d.val) g) s) s f 0x0603 .ok
        ((s.die d).groupRecord part.toNat (g &&& 0xFFF).toNat)) ∧
    (∀ (part : Byte) (a n : BitVec 16), s.accepts { op := 0x0704, change := false, len := 8, part := some part } f = true →
      part.toNat ≤ 15 → 1 ≤ n.toNat → n.toNat ≤ 254 → a.toNat + n.toNat ≤ 4096 → (s.die d).on = true →
      Answers (exec (.circRead f part (BitVec.ofNat 8 d.val) a n) s) s f 0x0704 .ok
        ((List.range n.toNat).flatMap fun i =>
          let e := (s.die d).tab.circuit (a.toNat + i)
          if ccPart e = part.toNat then le 8 e.toNat ++ le 8 ((s.die d).tab.lease (a.toNat + i)).toNat else le 16 0)) ∧
    (∀ (part q : Byte) (a : BitVec 32) (n : BitVec 16),
      s.accepts { op := 0x0804, change := false, cap := some 0, len := 12, part := some part } f = true → part.toNat ≤ 15 →
      q.toNat ≤ 63 → n.toNat ≤ 125 → (s.die d).on = true →
      Answers (exec (.dirRead f part (BitVec.ofNat 8 d.val) q a n) s) s f 0x0804 .ok
        ((s.die d).dirRead part.toNat q.toNat a.toNat n.toNat)) ∧
    (∀ (part : Byte) (a n : BitVec 16), s.accepts { op := 0x0B02, change := false, len := 8, part := some part } f = true →
      part.toNat ≤ 15 → 1 ≤ n.toNat → n.toNat ≤ 2028 → a.toNat + n.toNat ≤ 2048 → (s.die d).on = true →
      Answers (exec (.faultAlias f part (BitVec.ofNat 8 d.val) a n) s) s f 0x0B02 .ok
        (le 4 ((s.die d).view.part part.toNat).aliasEpoch.toNat ++ le 4 0 ++
          (List.range n.toNat).flatMap fun i =>
            match (s.die d).view.aliasOf part.toNat (a.toNat + i) (s.die d).now with
            | some e => le 2 e.toNat
            | none => le 2 0xFFFF)) ∧
    ∀ (w : Bool) (addr : BitVec 32) (n : BitVec 16), s.accepts { op := 0x0C30, change := true, len := 12 } f = true →
      1 ≤ n.toNat → n.toNat ≤ 990 → (w = false → (s.die d).on = true) →
      Answers (exec (.diagRead f (BitVec.ofNat 8 d.val) (if w then 1 else 0) addr n) s) { s with free := s.free + n.toNat } f
        0x0C30 .ok ((List.range n.toNat).flatMap fun i => le 4 (Config.diagWord addr (s.free + i)).toNat)

/-- link.config and link.retrain act on their port when accepted. On a powered die and a port 0 to 69: HOLD and DISABLE mark the
port leaving for HELD or DISABLED (a DISABLED port stays DISABLED); RELEASE takes a port HELD by command to ACTIVE at the
trained rate, ACTIVE_PW when not trained at 224 Gb/s, or DETECT when not trained; WIDEN at full width reports at once, and
otherwise trains the idle lanes; FULL fails a link that is up with the cause of row 6 and returns a port of a powered lane group
to DETECT, and leaves a port without power DISABLED with the cause of Table 12-6; NARROW to one or two active lanes requests that
switch with reason 3, and on a bridge port, which runs at x4 (R89), answers BAD_FIELD. The rest of the port, die and tray is
unchanged, but for what a failure or a switch request itself does. -/
def Obligations.LinkConfigAndRetrainComplete : Prop :=
  ∀ (s : State) (f : Frame) (d : DieId) (port : Byte), port.toNat ≤ 69 → (s.die d).on = true →
    let b : Byte := BitVec.ofNat 8 d.val
    let p := port.toNat
    let q := (s.die d).port p
    (s.accepts { op := 0x0302, change := true, len := 4 } f = true →
      Answers (exec (.linkConfigHold f b port) s)
        (s.modDie d fun x => x.modPort p fun q => if q.state = .disabled then q
          else { q with leaveTo := some .held }) f 0x0302 .ok [] ∧
      Answers (exec (.linkConfigDisable f b port) s)
        (s.modDie d fun x => x.modPort p fun q => if q.state = .disabled then q
          else { q with leaveTo := some .disabled }) f 0x0302 .ok [] ∧
      (q.state = .held → q.cause = 3 →
        Answers (exec (.linkConfigRelease f b port) s)
          (s.modDie d fun x => x.modPort p fun q =>
            { q with cause := 0, state := if q.lanes = 0 then .detect else if q.fullRate then .active else .activePw })
          f 0x0302 .ok [])) ∧
    (s.accepts { op := 0x0303, change := true, len := 4 } f = true →
      ((q.state = .active ∨ q.state = .held ∧ q.fullRate = true) →
        (q.width = 4 →
          Answers (exec (.linkRetrainWiden f b port) s)
            ((s.modDie d fun x => x.modPort p fun q => { q with retrain := true, widen := false }).reportRetrain d p false)
            f 0x0303 .accepted []) ∧
        (q.width ≠ 4 →
          Answers (exec (.linkRetrainWiden f b port) s)
            (s.modDie d fun x => x.modPort p fun q => { q with retrain := true, widen := true }) f 0x0303 .accepted []) ∧
        ∀ m : BitVec 4, (popCount m = 1 ∨ popCount m = 2) → m &&& q.lanes = m →
          (p < 64 → Answers (exec (.linkRetrainNarrow f b port (m.setWidth 8)) s)
            ((s.modDie d fun x => x.modPort p fun q => { q with retrain := true }).requestSwitch d p m false 3 false)
            f 0x0303 .accepted []) ∧
          (64 ≤ p → Answers (exec (.linkRetrainNarrow f b port (m.setWidth 8)) s) s f 0x0303 .badField [])) ∧
      let t := if q.up then s.failLink d p 6 else s
      Answers (exec (.linkRetrainFull f b port) s)
        (t.modDie d fun x => x.modPort p fun q =>
          if (t.die d).laneGroups.getLsbD (p / 4) then { q with state := .detect, cause := 0, retrain := true }
          else { q with state := .disabled, cause := t.offCause d p, retrain := true }) f 0x0303 .accepted [])

/-- link.portmap records the cabling and replans lane-group power; link.sweep begins a sweep on a held port. link.portmap is
carried out when every port whose bit it clears is DISABLED, HELD or in DETECT, and answers OK: the die's CABLED word is stored, the
flash record of all four words is written and the power plan is made anew; where a cleared bit's port is in another state it answers
PORT_IN_SERVICE and changes nothing. link.sweep with fields in range, at most 4,096 points a lane, on a powered die and a port HELD by
command that runs no sweep answers ACCEPTED and begins the sweep: the sweep becomes the newest of at most four kept, the port enters
SWEEP at point 0 of its first lane, a switch to the carrier lane of R170 is requested with reason 4, and START is sent; every other die
is unchanged. A sweep that runs on the port answers BUSY, and a port not HELD by command PORT_IN_SERVICE. -/
def Obligations.PortMapAndSweepComplete : Prop :=
  ∀ (s : State) (f : Frame) (d : DieId),
    (∀ cabled : BitVec 64, s.accepts { op := 0x0304, change := true, len := 16 } f = true →
      let kept (p : Nat) : Prop := (s.cabled d).getLsbD p = true → cabled.getLsbD p = false →
        ((s.die d).port p).state = .disabled ∨ ((s.die d).port p).state = .held ∨ ((s.die d).port p).state = .detect
      let t : State := { s with boot := { s.boot with cabled := Map.put s.boot.cabled d.val cabled } }
      ((∀ p, p < 64 → kept p) → Answers (exec (.linkPortmap f (BitVec.ofNat 8 d.val) cabled) s)
        (t.flashOp [t.mapRecord]).planPower f 0x0304 .ok []) ∧
      ((∃ p, p < 64 ∧ ¬ kept p) →
        Answers (exec (.linkPortmap f (BitVec.ofNat 8 d.val) cabled) s) s f 0x0304 .portInService [])) ∧
    ∀ (q : SweepReq) (n : Nat), s.accepts { op := 0x0310, change := true, len := 16 } f = true →
      q.die = BitVec.ofNat 8 d.val → q.port.toNat ≤ 69 → sweepPoints q = some n → n ≤ 4096 → (s.die d).on = true →
      let p := q.port.toNat
      let r := (s.die d).port p
      let i := Instr.linkSweep f q
      let lane := (sweepLanes (q.lanes.setWidth 4)).headD 0
      (r.near = none → r.far = none → r.state = .held → r.cause = 3 →
        (∃ t, Answers (exec i s) t f 0x0310 .accepted [] ∧ t.sweeps = (({ req := q } : SweepRec) :: s.sweeps).take 4 ∧
          ((t.die d).port p).state = .sweep ∧
          ((t.die d).port p).near = some { req := q, lane := BitVec.ofNat 2 lane, point := 0, lastSent := (s.die d).now, since := (s.die d).now } ∧
          (((t.die d).port p).sw.map fun w => (w.lanes, w.slow, w.reason)) = some (laneMask [sweepCarrier (q.lanes.setWidth 4) lane], false, 4) ∧
          (∀ e, e ≠ d → t.die e = s.die e) ∧ t.fuse = s.fuse ∧ t.tok = s.tok ∧ t.boot = s.boot ∧ t.pow = s.pow) ∧
        ∀ t, exec i s = .next t → Out.word d p (sweepWordOf q 1 lane 0) ∈ t.out) ∧
      (r.near ≠ none ∨ r.far ≠ none → Answers (exec i s) s f 0x0310 .busy []) ∧
      (r.near = none → r.far = none → (r.state ≠ .held ∨ r.cause ≠ 3) → Answers (exec i s) s f 0x0310 .portInService [])

/-- route.config, route.seal (seal and discard) and route.flip move the versions of the named partition only. On every powered die
of the mask whose versions are in the state the command needs: route.config sets UPDATE_MODE and LINGER_TICKS (a change of mode
needs both versions out of LINGER, STAGING and SEALED); route.seal seals a STAGING version; its discard retires a STAGING or SEALED
version and cancels a pending flip; route.flip to a tick later than now, with the inactive version SEALED and no flip pending,
records the flip tick and the LINGER_TICKS at its acceptance. Each answers DIE_RESULT with OK, DIE_OFF for a die without power, and
nothing else changes on any die. -/
def Obligations.RouteVersionCommandsComplete : Prop :=
  ∀ (s : State) (f : Frame) (part mask : Byte), part.toNat ≤ 15 → badMask mask = false →
    let ver (d : DieId) : Ver := (s.die d).verNow part.toNat
    let quiet (t : VerState) : Prop := t ≠ .linger ∧ t ≠ .staging ∧ t ≠ .sealed
    (∀ (drain : Bool) (linger : BitVec 16),
      s.accepts { op := 0x0401, change := true, len := 8, part := some part } f = true → 256 ≤ linger.toNat →
      (∀ d, s.reached mask d = true → (ver d).drain = drain ∨ quiet (ver d).v0 ∧ quiet (ver d).v1) →
      Answers (exec (.routeConfig f part mask (if drain then 1 else 0) linger) s)
        (s.onMask mask fun d x => x.setVer part.toNat { ver d with drain := drain, linger := linger }) f 0x0401 .ok
        (s.maskOk mask)) ∧
    (∀ v : Bool, s.accepts { op := 0x0411, change := true, len := 4, part := some part } f = true →
      ((∀ d, s.reached mask d = true → (ver d).st v = .staging) →
        Answers (exec (.routeSeal f part mask (if v then 1 else 0)) s)
          (s.onMask mask fun d x => x.setVer part.toNat ((ver d).setSt v .sealed)) f 0x0411 .ok (s.maskOk mask)) ∧
      ((∀ d, s.reached mask d = true → (ver d).st v = .staging ∨ (ver d).st v = .sealed) →
        Answers (exec (.routeDiscard f part mask (if v then 1 else 0)) s)
          (s.onMask mask fun d x => x.setVer part.toNat { (ver d).setSt v .retired with flip := none }) f 0x0411 .ok
          (s.maskOk mask))) ∧
    ∀ flip : Tick, s.accepts { op := 0x0412, change := true, len := 16, part := some part } f = true →
      (∀ d, s.reached mask d = true →
        (ver d).flip = none ∧ (ver d).st (!(ver d).sel) = .sealed ∧ later flip (s.die d).now = true) →
      Answers (exec (.routeFlip f part mask flip) s)
        (s.onMask mask fun d x => x.setVer part.toNat { ver d with flip := some flip, flipLinger := (ver d).linger }) f 0x0412 .ok (s.maskOk mask)

/-- route.stage and route.owner write the named entries of the named versions and no others. route.owner on dies where every
named DST is INVALID in both versions, and the partitions it concerns are not in DRAIN mode or have VC3, 4, 6 and 7 DRAINED (R215),
sets PART of those entries in both versions. route.stage of records of the partition's own
entries into a version that is STAGING (in EPOCH mode), or the ACTIVE version of a drained partition (in DRAIN mode), writes
exactly the entries of the records: every other entry of either version reads as before, and each named entry reads as the last
record for it, reserved bits cleared. Where the version is RETIRED, the partition's entries of the ACTIVE version are first
copied over it. In EPOCH mode the version is STAGING afterwards. Ports, held packets, what lookups see, and the other tables of
every die are unchanged. -/
def Obligations.RouteEntriesAreWritten : Prop :=
  ∀ (s : State) (f : Frame) (part mask : Byte), part.toNat ≤ 15 → badMask mask = false →
    (∀ a n : BitVec 16, s.accepts { op := 0x0415, change := true, len := 8, part := some part } f = true → 1 ≤ n.toNat →
      a.toNat + n.toNat ≤ 2048 →
      (∀ d, s.reached mask d = true → ∀ i, i < n.toNat → ∀ v, rtKind ((s.die d).tab.route v (a.toNat + i)) = 0) →
      (∀ d, s.reached mask d = true → ∀ q, (q = part.toNat ∨ ∃ i v, i < n.toNat ∧ q = rtPart ((s.die d).tab.route v (a.toNat + i))) →
        ((s.die d).verNow q).drain = true → (s.die d).isDrained q 0xD8 = true) →
      ∃ t, Answers (exec (.routeOwner f part mask a n) s) t f 0x0415 .ok (s.maskOk mask) ∧
        ∀ d, (s.reached mask d = false → t.die d = s.die d) ∧
          (s.reached mask d = true →
            (t.die d) = { s.die d with tab := { (s.die d).tab with
              route0 := (t.die d).tab.route0, route1 := (t.die d).tab.route1 } } ∧
            ∀ v k, (t.die d).tab.route v k =
              if a.toNat ≤ k ∧ k < a.toNat + n.toNat then rtSetPart ((s.die d).tab.route v k) part.toNat
              else (s.die d).tab.route v k)) ∧
    ∀ (v : Bool) (recs : List StageRec),
      s.accepts { op := 0x0410, change := true, len := 8 + 12 * recs.length, part := some part } f = true → recs ≠ [] →
      recs.length ≤ 256 → (∀ e ∈ recs, e.dst.toNat ≤ 2047) →
      let before (d : DieId) (w : Bool) (k : Nat) : BitVec 64 :=
        let x := s.die d
        let r := x.verNow part.toNat
        if w = v ∧ r.drain = false ∧ r.st v = .retired ∧ rtPart (x.tab.route r.sel k) = part.toNat then x.tab.route r.sel k
        else x.tab.route w k
      (∀ d, s.reached mask d = true →
        let x := s.die d
        let r := x.verNow part.toNat
        (r.drain = true ∧ v = r.sel ∧ x.isDrained part.toNat 0xD8 = true ∨
            r.drain = false ∧ (r.st v = .staging ∨ r.st v = .retired ∧ v ≠ r.sel)) ∧
          ∀ e ∈ recs, recordOk part.toNat (before d v e.dst.toNat) e = true) →
      ∃ t, Answers (exec (.routeStage f part mask (if v then 1 else 0) recs) s) t f 0x0410 .ok (s.maskOk mask) ∧
        ∀ d, (s.reached mask d = false → t.die d = s.die d) ∧
          (s.reached mask d = true →
            (∀ w k, (t.die d).tab.route w k =
              match recs.reverse.find? fun e => w == v && e.dst.toNat == k with
              | some e => rtClean e.entry
              | none => before d w k) ∧
            (∀ q, q ≠ part.toNat → (t.die d).tab.ver q = (s.die d).tab.ver q) ∧
            (((s.die d).verNow part.toNat).drain = false → ((t.die d).tab.ver part.toNat).st v = .staging) ∧
            (t.die d).view = (s.die d).view ∧ (t.die d).ports = (s.die d).ports ∧ (t.die d).held = (s.die d).held ∧
            (t.die d).tab.parts = (s.die d).tab.parts ∧ (t.die d).tab.circuits = (s.die d).tab.circuits ∧
            (t.die d).tab.groups = (s.die d).tab.groups ∧ (t.die d).tab.seqs = (s.die d).tab.seqs ∧
            (t.die d).tab.dir = (s.die d).tab.dir)

/-- route.reach with OP 1 writes REACH[l] of the powered dies of the mask as notices of the acceptance tick. On a tray that is
no SPINE, when no notice for the leaf is newer than the acceptance tick: REACH[l] of every powered die of the mask becomes the
value, in both what lookups and what commands see at the next boundary, every other leaf's REACH and every other die's is
unchanged, and the notice tick of every spine die for that leaf is the acceptance tick. -/
def Obligations.ReachWriteSetsBits : Prop :=
  ∀ (s : State) (f : Frame) (mask leaf : Byte) (value : BitVec 32),
    s.accepts { op := 0x0420, change := true, len := 8 } f = true → leaf.toNat ≤ 63 → badMask mask = false → s.isSpine = false →
    (∀ q, q < 32 → ∀ u, Map.look s.notes.applied (64 * q + leaf.toNat) = some u → later s.boot.now u = true) →
    ∃ t, Answers (exec (.routeReachWrite f mask leaf value) s) t f 0x0420 .ok (s.maskOk mask ++ t.reachBlock leaf.toNat) ∧
      (∀ d, s.reached mask d = true → (t.die d).tab.reachOf leaf.toNat = value ∧
        ∀ k, k ≠ leaf.toNat → (t.die d).tab.reachOf k = (s.die d).tab.reachOf k) ∧
      (∀ d k, s.reached mask d = false → (t.die d).tab.reachOf k = (s.die d).tab.reachOf k) ∧
      (∀ q, q < 32 → Map.look t.notes.applied (64 * q + leaf.toNat) = some s.boot.now) ∧
      (∀ d, (t.die d).tab.route0 = (s.die d).tab.route0 ∧ (t.die d).tab.route1 = (s.die d).tab.route1 ∧
        (t.die d).ports = (s.die d).ports ∧ (t.die d).tab.parts = (s.die d).tab.parts) ∧
      t.fuse = s.fuse ∧ t.tok = s.tok ∧ t.boot = s.boot ∧ t.pow = s.pow

/-- part.open, part.restart and part.close change the partition on every powered die of the mask and leave other partitions.
part.open on dies where the partition is CLOSED, and part.restart on dies where it is FENCED, put it into REOPENING there with
the next GEN; open also empties its alias table, restart keeps it. part.close on dies where it is OPEN or FENCED with no down
port assigned puts it into CLOSED with an empty directory range and none of its circuits, group or sequence entries valid, and
its segments returning. On every die the settings of every other partition, the routes and the port assignments are unchanged,
and dies outside the mask keep their tables. -/
def Obligations.PartitionsOpenRestartAndClose : Prop :=
  ∀ (s : State) (f : Frame) (part mask : Byte), part.toNat ≤ 15 → badMask mask = false →
    let p := part.toNat
    let others (t : State) : Prop := ∀ d, (∀ q, q ≠ p → (t.die d).tab.part q = (s.die d).tab.part q) ∧
      (t.die d).tab.route0 = (s.die d).tab.route0 ∧ (t.die d).tab.route1 = (s.die d).tab.route1 ∧
      (t.die d).tab.portPart = (s.die d).tab.portPart ∧ (s.reached mask d = false → (t.die d).tab = (s.die d).tab)
    (s.accepts { op := 0x0501, change := true, len := 4, part := some part } f = true →
      (∀ d, s.reached mask d = true → ((s.die d).tab.part p).state = .closed) →
      ∃ t, Answers (exec (.partOpen f part mask) s) t f 0x0501 .ok (s.maskOk mask) ∧ others t ∧
        ∀ d, s.reached mask d = true →
          (t.die d).tab.part p =
            { (s.die d).tab.part p with state := .reopening, gen := ((s.die d).tab.part p).gen + 1, aliasEpoch := 0 } ∧
          (∀ r, r < 2048 → Map.look (t.die d).tab.ranks (2048 * p + r) = none) ∧
          ((t.die d).segJobs.map (·.item)) = ((s.die d).segJobs.map (·.item)) ++ (s.die d).tab.segsHeld p) ∧
    (s.accepts { op := 0x0505, change := true, len := 4, part := some part } f = true →
      (∀ d, s.reached mask d = true → ((s.die d).tab.part p).state = .fenced) →
      ∃ t, Answers (exec (.partRestart f part mask) s) t f 0x0505 .ok (s.maskOk mask) ∧ others t ∧
        ∀ d, s.reached mask d = true →
          (t.die d).tab.part p = { (s.die d).tab.part p with state := .reopening, gen := ((s.die d).tab.part p).gen + 1 } ∧
          (t.die d).tab.ranks = (s.die d).tab.ranks ∧ (t.die d).fencedAt = Map.rem (s.die d).fencedAt p) ∧
    (s.accepts { op := 0x0502, change := true, len := 4, part := some part } f = true →
      (∀ d, s.reached mask d = true →
        (((s.die d).tab.part p).state = .opened ∨ ((s.die d).tab.part p).state = .fenced) ∧
          ∀ e ∈ (s.die d).tab.portPart, e.2.toNat ≠ p) →
      ∃ t, Answers (exec (.partClose f part mask) s) t f 0x0502 .ok (s.maskOk mask) ∧ others t ∧
        ∀ d, s.reached mask d = true →
          (t.die d).tab.part p = { (s.die d).tab.part p with state := .closed, dirBase := 0, dirSize := 0 } ∧
          (∀ e ∈ (t.die d).tab.circuits, ccPart e.2 = p → ccValid e.2 = false) ∧
          (∀ e ∈ (t.die d).tab.groups, gPart e.2.control = p → gValid e.2.control = false) ∧
          (∀ e ∈ (t.die d).tab.seqs, e.1 / 64 = p → sdValid e.2 = false) ∧
          (∀ e ∈ (t.die d).tab.segs, e.2.owner = some (BitVec.ofNat 4 p) → e.2.returning = true))

/-- part.alloc and part.ports change one segment, directory range or port of one powered die. part.alloc OP 1 of a free segment
gives it to the partition; OP 2 of a segment that the partition holds, when the quota stays large enough, marks it returning; OP
3 of a range that overlaps no other partition's and holds every valid descriptor sets it and clears the entries that leave it;
each replans power. part.ports OP 1 on a tray that is no SPINE assigns a down port that no partition has; OP 2 removes the
partition's own. Nothing else of the die or tray changes but for power planning and zeroing. -/
def Obligations.SegmentsRangesAndPortsAreAssigned : Prop :=
  ∀ (s : State) (f : Frame) (part : Byte) (d : DieId), part.toNat ≤ 15 → (s.die d).on = true →
    let b : Byte := BitVec.ofNat 8 d.val
    let p := part.toNat
    let x := s.die d
    let own : BitVec 4 × BitVec 16 := (BitVec.ofNat 4 p, (x.tab.part p).gen)
    let put (g : Nat) (e : Seg) : Die := x.modTab fun t => { t with segs := Map.put t.segs g e }
    (s.accepts { op := 0x0503, change := true, len := 12, part := some part } f = true →
      (∀ g : Byte, g.toNat ≤ 46 → (x.tab.seg g.toNat).owner = none → (∀ j ∈ x.segJobs, j.item ≠ g.toNat) →
        ((x.tab.part p).state = .closed →
          Answers (exec (.partGrantSeg f part b g) s)
            (s.setDie d (put g.toNat { owner := some own.1, last := (x.tab.seg g.toNat).last })).planPower f 0x0503 .ok []) ∧
        ((x.tab.part p).state ≠ .closed → (x.tab.seg g.toNat).last = some own →
          Answers (exec (.partGrantSeg f part b g) s)
            (s.setDie d (put g.toNat { owner := some own.1, last := some own, inQuota := true })).planPower f 0x0503 .ok []) ∧
        ((x.tab.part p).state ≠ .closed → (x.tab.seg g.toNat).last ≠ some own →
          Answers (exec (.partGrantSeg f part b g) s)
            (s.setDie d ((put g.toNat { owner := some own.1, last := some own }).zeroSegs [g.toNat])).planPower f 0x0503 .ok [])) ∧
      (∀ g : Byte, g.toNat ≤ 46 → (x.tab.seg g.toNat).owner = some own.1 → (x.tab.seg g.toNat).returning = false →
        x.quotaOk ((x.tab.segsHeld p).length - 1) (x.tab.part p).shares = true →
        Answers (exec (.partReturnSeg f part b g) s)
          (s.setDie d (put g.toNat { x.tab.seg g.toNat with returning := true })).planPower f 0x0503 .ok []) ∧
      ∀ base size : BitVec 32, base.toNat + size.toNat ≤ 262144 →
        (∀ e ∈ x.tab.parts, e.1 ≠ p → overlap base.toNat size.toNat e.2.dirBase e.2.dirSize = false) →
        (∀ e ∈ x.tab.seqsOf p, base.toNat ≤ sdBase e.2 ∧ sdBase e.2 + sdBlocks e.2 ≤ base.toNat + size.toNat) →
        Answers (exec (.partDirRange f part b base size) s)
          (s.setDie d ((x.clearDir fun i => inRange (x.tab.part p).dirBase (x.tab.part p).dirSize i &&
            !inRange base.toNat size.toNat i).modTab fun t =>
              t.modPart p fun q => { q with dirBase := base.toNat, dirSize := size.toNat })).planPower f 0x0503 .ok []) ∧
    (s.accepts { op := 0x0504, change := true, len := 4, part := some part } f = true → s.isSpine = false →
      ∀ port : Byte, port.toNat ≤ 31 →
        (Map.look x.tab.portPart port.toNat = none →
          Answers (exec (.partPortsAssign f part b port) s)
            (s.modDie d fun x => x.modTab fun t => { t with portPart := Map.put t.portPart port.toNat (part.setWidth 4) })
            f 0x0504 .ok []) ∧
        (Map.look x.tab.portPart port.toNat = some (part.setWidth 4) →
          Answers (exec (.partPortsUnassign f part b port) s)
            (s.modDie d fun x => x.modTab fun t => { t with portPart := Map.rem t.portPart port.toNat }) f 0x0504 .ok []))

/-- part.config, part.quiesce and part.resume change the settings of the named partition on every powered die of the mask.
part.config with SET_MASK naming CIRC_CAP (0 to 16) and DEFAULT_LEASE (not 0) sets those two and nothing else; naming MODE
alone, on dies where the partition has neither an open group nor a live circuit lease, sets the mode and its defaults for
shares, CIRC_CAP and lease. part.quiesce on OPEN partitions adds the named channels to those quiesced, and part.resume removes
them; a quiesce of some channels starts the DRAINED count of each newly quiesced channel at the next tick. -/
def Obligations.PartitionSettingsAndQuiesceComplete : Prop :=
  ∀ (s : State) (f : Frame) (part mask : Byte), part.toNat ≤ 15 → badMask mask = false →
    let p := part.toNat
    (s.accepts { op := 0x0506, change := true, len := 24, part := some part } f = true →
      (∀ (mode failMode cap : Byte) (shares : BitVec 64) (lease : BitVec 32), cap.toNat ≤ 16 → lease ≠ 0 →
        Answers (exec (.partConfig f part mask 0x18 mode failMode cap shares lease) s)
          (s.onMask mask fun _ x => x.modTab fun t => t.modPart p fun q => { q with circCap := cap, defLease := lease })
          f 0x0506 .ok (s.maskOk mask)) ∧
      ∀ (layer : Bool) (failMode cap : Byte) (shares : BitVec 64) (lease : BitVec 32),
        (∀ d, s.reached mask d = true → (s.die d).modeFixed p = false) →
        Answers (exec (.partConfig f part mask 1 (if layer then 1 else 0) failMode cap shares lease) s)
          (s.onMask mask fun _ x => x.modTab fun t => t.modPart p fun q =>
            { q with layer := layer, shares := if layer then 0x03020C0404030301#64 else 0x020201040A060601#64,
                     circCap := if layer then 12 else 2, defLease := if layer then 250000 else 2500 })
          f 0x0506 .ok (s.maskOk mask)) ∧
    ∀ vcs : Byte, (∀ d, s.reached mask d = true → ((s.die d).tab.part p).state = .opened) →
      (s.accepts { op := 0x0520, change := true, cap := some 1, len := 4, vcOk := vcsInband vcs, part := some part } f = true →
        vcs ≠ 0xFF →
        Answers (exec (.partQuiesce f part mask vcs) s)
          (s.onMask mask fun _ x =>
            { (x.modTab fun t => t.modPart p fun q => { q with quiesced := q.quiesced ||| vcs }) with
              idleFrom := (bitsOf (vcs &&& ~~~(x.tab.part p).quiesced)).foldl
                (fun m v => Map.put m (8 * p + v) (x.now + 1)) x.idleFrom })
          f 0x0520 .ok (s.maskOk mask)) ∧
      (s.accepts { op := 0x0521, change := true, cap := some 1, len := 4, vcOk := vcsInband vcs, part := some part } f = true →
        Answers (exec (.partResume f part mask vcs) s)
          (s.onMask mask fun _ x => x.modTab fun t => t.modPart p fun q => { q with quiesced := q.quiesced &&& ~~~vcs })
          f 0x0521 .ok (s.maskOk mask))

/-- grp.open makes the entry and assigns its pots on every powered die of the mask; grp.close frees them. grp.open of a valid
control word, on dies where the partition is OPEN with VC1 and VC2 drained, the entry is not VALID, every rank has an alias,
homes and roots are distinct and enough pots are free: the entry becomes VALID with the defaults filled in, its PART, own home
and root fields, weights and BLOCK_HOME, and WINDOW pots for each place of the die become its own, those last held by another group
being zeroed first, while every other pot stays as it was; every other entry, circuit, route and partition setting is unchanged, and
the response is DIE_RESULT, the number of pots of the group on each reached die, zero for the others, and a ready tick. grp.close on
dies where VC1 and VC2 are drained answers OK on each: where the entry is VALID for the partition it clears VALID, ends its pours and
frees its pots; where it is not VALID nothing changes; every other entry is unchanged. -/
def Obligations.GroupsOpenAndClose : Prop :=
  ∀ (s : State) (f : Frame) (part mask : Byte) (group : BitVec 16), part.toNat ≤ 15 → badMask mask = false →
    let p := part.toNat
    let g := (group &&& 0xFFF).toNat
    let rest (t : State) : Prop := ∀ d, (s.reached mask d = false → t.die d = s.die d) ∧
      (∀ k, k ≠ g → (t.die d).tab.group k = (s.die d).tab.group k) ∧ (t.die d).tab.circuits = (s.die d).tab.circuits ∧
      (t.die d).tab.parts = (s.die d).tab.parts ∧ (t.die d).tab.route0 = (s.die d).tab.route0 ∧
      (t.die d).tab.route1 = (s.die d).tab.route1 ∧ (t.die d).ports = (s.die d).ports ∧ (t.die d).view = (s.die d).view
    (∀ (control : BitVec 128) (weights : BitVec 1024),
      s.accepts { op := 0x0601, change := true, cap := some 1, len := 152, part := some part } f = true →
      let c := controlAsked control
      let places (d : DieId) (eps : List (BitVec 11)) : List Place :=
        groupPlaces s.isLeaf ((homesOf c eps).contains (s.leafIndex d) && s.isLeaf)
          ((rootsOf c (homesOf c eps)).contains (s.leafIndex d) && s.isLeaf)
      controlOk c = true → (weights = 0 ∨ gOp c = 4) → pairingOk (gOp c) (gFmt c) (gOut c) = true →
      ∀ eps : DieId → List (BitVec 11),
      (∀ d, s.reached mask d = true →
        let x := s.die d
        (x.tab.part p).state = .opened ∧ x.isDrained p 0x06 = true ∧ gValid (x.tab.group g).control = false ∧
          x.groupEndpoints p c = some (eps d) ∧ distinct (homesOf c (eps d)) = true ∧
          distinct (rootsOf c (homesOf c (eps d))) = true ∧ gWindow c * (places d (eps d)).length ≤ x.freePots.length) →
      ∃ (t : State) (ready : Tick), Answers (exec (.grpOpen f part mask group control weights) s) t f 0x0601 .ok
          (s.maskOk mask ++ ((allDieIds.map fun d => if s.reached mask d then BitVec.ofNat 8 ((t.die d).groupPots p g).length else 0) ++
            le 4 0 ++ le 8 ready.toNat)) ∧ rest t ∧
        ∀ d, s.reached mask d = true →
          let homes := homesOf c (eps d)
          let own (l : List Nat) : Option Nat := if s.isLeaf then l.findIdx? (· == s.leafIndex d) else none
          let n := gWindow c * (places d (eps d)).length
          let use := (s.die d).freePots.take n
          let mine := (BitVec.ofNat 4 p, ((s.die d).tab.part p).gen, BitVec.ofNat 12 g)
          (t.die d).tab.group g = { control := controlStored c p (own homes) (own (rootsOf c homes)), weights := weights,
                                    blockHome := blockHomes homes } ∧
          (∀ i, i < n → ((t.die d).pot (use.getD i 0)).owner =
            some (mine.1, mine.2.2, (places d (eps d)).getD (i / gWindow c) .level1)) ∧
          (∀ k ∈ use, ((t.die d).pot k).zeroing = (((s.die d).pot k).last != some mine || ((s.die d).pot k).zeroing)) ∧
          ∀ k, k ∉ use → (t.die d).pot k = (s.die d).pot k) ∧
    (s.accepts { op := 0x0602, change := true, cap := some 1, len := 4, part := some part } f = true →
      (∀ d, s.reached mask d = true → (s.die d).isDrained p 0x06 = true ∧
        (gValid ((s.die d).tab.group g).control = true → gPart ((s.die d).tab.group g).control = p)) →
      ∃ t, Answers (exec (.grpClose f part mask group) s) t f 0x0602 .ok (s.maskOk mask) ∧ rest t ∧
        ∀ d, s.reached mask d = true →
          (gValid ((s.die d).tab.group g).control = false → t.die d = s.die d) ∧
          (gValid ((s.die d).tab.group g).control = true →
            (t.die d).tab.group g =
              { (s.die d).tab.group g with control := setBit ((s.die d).tab.group g).control 0 false } ∧
            (t.die d).pours = (s.die d).pours.filter (fun q => q.key.group.toNat != g) ∧
            ∀ n, if n ∈ (s.die d).groupPots p g then ((t.die d).pot n).owner = none ∧ ((t.die d).pot n).pour = none
              else (t.die d).pot n = (s.die d).pot n))

/-- circ.setup, circ.renew and circ.release change one circuit entry and its lease and no other. circ.setup on one powered die,
where the partition is OPEN with VC5 drained, the entry free, its fields in range, its slots granted to no other entry and the
partition within CIRC_CAP: the entry and its lease end (now plus the lease, the partition's default for 0) are stored,
circuit.shrunk is checked, and the lease end is answered. circ.renew moves the lease end of an entry that the tick finds for the
partition on every powered die of the mask. circ.release on dies with VC5 drained and the entry VALID for the partition clears
entry and lease. -/
def Obligations.CircuitsAreSetUpRenewedAndReleased : Prop :=
  ∀ (s : State) (f : Frame) (part mask : Byte) (circuit : BitVec 16), part.toNat ≤ 15 → circuit.toNat ≤ 4095 →
    let p := part.toNat
    let c := circuit.toNat
    (∀ (d : DieId) (e : BitVec 64) (lease : BitVec 32),
      s.accepts { op := 0x0701, change := true, len := 24, part := some part } f = true → (s.die d).on = true →
      let x := s.die d
      let q := x.tab.part p
      q.state = .opened → x.isDrained p 0x20 = true → ccValid (x.tab.circuit c) = false → ccValid e = true → ccPart e = p →
      ccEgress e ≤ 69 → 1 ≤ ccMax e → ccMax e ≤ 8 → ccSlots e ≠ 0 →
      x.slotsTaken (ccEgress e) (fun _ => true) &&& ccSlots e = 0 →
      popCount (x.slotsTaken (ccEgress e) (· == p) ||| ccSlots e) ≤ q.circCap.toNat →
      let past := x.now + (if lease = 0 then q.defLease else lease).setWidth 48
      Answers (exec (.circSetup f part (BitVec.ofNat 8 d.val) circuit e lease) s)
        ((s.modDie d fun x => x.modTab fun t =>
          { t with circuits := Map.put t.circuits c (ccClean e), leases := Map.put t.leases c past }).checkShrunk d c e)
        f 0x0701 .ok (le 8 past.toNat)) ∧
    (∀ lease : BitVec 32, s.accepts { op := 0x0702, change := true, len := 8, part := some part } f = true →
      badMask mask = false → (∀ d, s.reached mask d = true → (s.die d).findsCircuit p c = true) →
      let past (d : DieId) : Tick :=
        (s.die d).now + (if lease = 0 then ((s.die d).tab.part p).defLease else lease).setWidth 48
      Answers (exec (.circRenew f part mask circuit lease) s)
        (s.onMask mask fun d x => x.modTab fun t => { t with leases := Map.put t.leases c (past d) }) f 0x0702 .ok
        (s.maskOk mask ++ allDieIds.flatMap fun d => le 8 (if s.reached mask d then (past d).toNat else 0))) ∧
    (s.accepts { op := 0x0703, change := true, len := 4, part := some part } f = true → badMask mask = false →
      (∀ d, s.reached mask d = true → (s.die d).isDrained p 0x20 = true ∧ ccValid ((s.die d).tab.circuit c) = true ∧
        ccPart ((s.die d).tab.circuit c) = p) →
      Answers (exec (.circRelease f part mask circuit) s)
        (s.onMask mask fun _ x =>
          { x with tab := { x.tab with circuits := Map.rem x.tab.circuits c, leases := Map.rem x.tab.leases c },
                   cleared := Map.put x.cleared (262144 + c) true, short := Map.rem x.short c }) f 0x0703 .ok (s.maskOk mask))

/-- dir.seq, dir.write and dir.range change descriptors and entries as their records say. dir.seq stores a valid descriptor that
lies in the partition's range and overlaps no other (clearing the old entries when it moves), or clears it. dir.write applies
its records in order on every powered die of the mask and answers their outcomes: an INSTALL of a routed owner writes a valid
entry with install tick now and expiry now plus its age; a REFRESH of an entry that the tick finds live moves its expiry; an
EVICT clears VALID. dir.range with OP 3 clears VALID of every block of the range and leaves every other entry; with OP 2 it
moves the expiry of each live entry of the range. -/
def Obligations.DirectoryCommandsComplete : Prop :=
  ∀ (s : State) (f : Frame) (part mask q : Byte), part.toNat ≤ 15 → badMask mask = false → q.toNat ≤ 63 →
    let p := part.toNat
    let seq (d : DieId) : BitVec 128 := (s.die d).tab.seq p q.toNat
    (∀ w : BitVec 128, s.accepts { op := 0x0801, change := true, cap := some 2, len := 20, part := some part } f = true →
      (∀ d, s.reached mask d = true → sdValid w = true → descOk w = true ∧
        ((s.die d).tab.part p).dirBase ≤ sdBase w ∧
        sdBase w + sdBlocks w ≤ ((s.die d).tab.part p).dirBase + ((s.die d).tab.part p).dirSize ∧
        ∀ e ∈ (s.die d).tab.seqsOf p, e.1 % 64 ≠ q.toNat → overlap (sdBase w) (sdBlocks w) (sdBase e.2) (sdBlocks e.2) = false) →
      Answers (exec (.dirSeq f part mask q w) s)
        (s.onMask mask fun d x =>
          (if sdValid (seq d) && descMoved (seq d) w then x.clearDir (inRange (sdBase (seq d)) (sdBlocks (seq d))) else x).modTab
            fun t => { t with seqs := if sdValid w then Map.put t.seqs (64 * p + q.toNat) (sdClean w)
                                      else Map.rem t.seqs (64 * p + q.toNat) })
        f 0x0801 .ok (s.maskOk mask)) ∧
    (∀ recs : List DirRec,
      s.accepts { op := 0x0802, change := true, cap := some 2, len := 8 + 16 * recs.length, part := some part } f = true →
      recs ≠ [] → recs.length ≤ 64 → (∀ r ∈ recs, r.seqId.toNat ≤ 63 ∧ (r.op = 1 → r.owner.toNat ≤ 2047)) →
      Answers (exec (.dirWrite f part mask recs) s) (s.onMask mask fun _ x => (x.dirRecs p recs).1) f 0x0802 .ok
        (s.maskOk mask ++ allDieIds.flatMap fun d =>
          let o := if s.reached mask d then ((s.die d).dirRecs p recs).2 else []
          o ++ List.replicate (64 - o.length) 0xFF)) ∧
    (∀ (x : Die) (r : DirRec) (w : BitVec 128), x.tab.seq p r.seqId.toNat = w → sdValid w = true → r.block.toNat < sdBlocks w →
      let i := sdBase w + r.block.toNat
      let e := x.tab.entry i
      let age := if r.age = 0 then sdAge w else r.age.toNat
      (r.op = 1 → x.view.routed p r.owner.toNat x.now = true →
        x.dirRec p r = (x.putEntry i
          { valid := true, part := BitVec.ofNat 4 p, seqId := BitVec.ofNat 6 r.seqId.toNat, noAge := r.noAge || age == 0,
            block := r.block.setWidth 18, owner := r.owner.setWidth 11, install := x.now,
            expiry := x.now + BitVec.ofNat 48 age }, 0)) ∧
      (r.op = 2 → x.view.live (x.view.entry i) x.now = true → e.valid = true → Map.lookD x.cleared i false = false →
        e.noAge = false → x.dirRec p r =
          (x.putEntry i (if age = 0 then { e with noAge := true } else { e with expiry := x.now + BitVec.ofNat 48 age }), 0)) ∧
      (r.op = 3 → e.valid = true →
        x.dirRec p r = ({ (x.putEntry i { e with valid := false }) with cleared := Map.put x.cleared i true }, 0))) ∧
    ∀ (a : BitVec 32) (n : BitVec 16),
      s.accepts { op := 0x0803, change := true, cap := some 2, len := 16, part := some part } f = true → 1 ≤ n.toNat →
      n.toNat ≤ 8192 →
      (∀ d, s.reached mask d = true → sdValid (seq d) = true ∧ a.toNat + n.toNat ≤ sdBlocks (seq d)) →
      let inside (d : DieId) (i : Nat) : Bool := inRange (sdBase (seq d) + a.toNat) n.toNat i
      let rest (t : State) : Prop := ∀ d, (s.reached mask d = false → t.die d = s.die d) ∧
        (∀ i, inside d i = false → (t.die d).tab.entry i = (s.die d).tab.entry i) ∧
        (t.die d).tab = { (s.die d).tab with dir := (t.die d).tab.dir } ∧ (t.die d).view = (s.die d).view ∧
        (t.die d).ports = (s.die d).ports ∧ (t.die d).held = (s.die d).held
      (∃ t, Answers (exec (.dirRangeEvict f part mask q a n) s) t f 0x0803 .ok (s.maskOk mask ++ List.replicate 16 0) ∧ rest t ∧
        ∀ d i, s.reached mask d = true → inside d i = true →
          (t.die d).tab.entry i = { (s.die d).tab.entry i with valid := false }) ∧
      ∀ age : BitVec 32, ∃ t pay, Answers (exec (.dirRangeRefresh f part mask q a n age) s) t f 0x0803 .ok
          (s.maskOk mask ++ pay) ∧ pay.length = 16 ∧ rest t ∧
        ∀ d i, s.reached mask d = true → inside d i = true →
          let x := s.die d
          let e := x.tab.entry i
          let n := if age = 0 then sdAge (seq d) else age.toNat
          (t.die d).tab.entry i =
            if x.view.live (x.view.entry i) x.now ∧ e.valid ∧ Map.lookD x.cleared i false = false ∧ e.noAge = false then
              (if n = 0 then { e with noAge := true } else { e with expiry := x.now + BitVec.ofNat 48 n })
            else e

/-- cong.config and fault.remap take effect on every powered die of the mask. cong.config with SET_MASK not 0 and values in
range sets the selected of MODE, MARK_THRESH and THROTTLE_THRESH of one (partition, VC) and answers the settings of every die;
with SET_MASK 0 it only reads. fault.remap on dies where the partition is OPEN in REMAP mode with no re-map pending, with
ALIAS_EPOCH one above the one in force, a spare routed in the partition and an effect tick later than now, records the pending
re-map. -/
def Obligations.CongestionAndRemapCommandsComplete : Prop :=
  ∀ (s : State) (f : Frame) (part mask : Byte), part.toNat ≤ 15 → badMask mask = false →
    let p := part.toNat
    (∀ (vc set mode : Byte) (mark throttle : BitVec 32),
      let sel (i : Nat) : Bool := set.getLsbD i
      s.accepts { op := 0x0901, change := sel 0 || sel 1 || sel 2, len := 16, part := some part } f = true → vc.toNat ≤ 7 →
      (sel 0 = true → mode.toNat ≤ 3 ∧ (vc = 5 ↔ mode = 0)) → (sel 1 = true → 4096 ≤ mark.toNat ∧ mark.toNat ≤ 262144) →
      (sel 2 = true → 8192 ≤ throttle.toNat ∧ throttle.toNat ≤ 524288) →
      let u := if sel 0 || sel 1 || sel 2 then
          s.onMask mask fun _ x => x.modTab fun t =>
            let c := t.congOf p vc.toNat
            let c : Cong := { mode := if sel 0 then mode.setWidth 2 else c.mode, mark := if sel 1 then mark else c.mark,
                              throttle := if sel 2 then throttle else c.throttle }
            { t with cong := Map.put t.cong (8 * p + vc.toNat) c }
        else s
      Answers (exec (.congConfig f part mask vc set mode mark throttle) s) u f 0x0901 .ok
        (s.maskOk mask ++ allDieIds.flatMap fun d => (u.die d).congRecord p vc.toNat)) ∧
    ∀ (rank spare : BitVec 16) (epoch : BitVec 32) (effect : Tick),
      s.accepts { op := 0x0B01, change := true, len := 24, part := some part } f = true → rank.toNat ≤ 2047 →
      spare.toNat ≤ 2047 →
      (∀ d, s.reached mask d = true →
        let x := s.die d
        let e := x.tab.route (x.tab.verAt p x.now).sel spare.toNat
        (x.tab.part p).state = .opened ∧ (x.tab.part p).restart = false ∧ Map.look x.remaps p = none ∧
          epoch = (x.tab.part p).aliasEpoch + 1 ∧ rtKind e ≠ 0 ∧ rtPart e = p ∧ later effect x.now = true) →
      Answers (exec (.faultRemap f part mask rank spare epoch effect) s)
        (s.onMask mask fun _ x =>
          { x with remaps := Map.put x.remaps p { rank := rank.setWidth 11, spare := spare.setWidth 11, epoch := epoch, effect := effect } })
        f 0x0B01 .ok (s.maskOk mask)

/-- pwr.state begins the move to the named power state; pwr.ramp sets the pacing settings from the next boundary. pwr.state to
T0 or T1, and to T2 or T3 when no partition is OPEN or REOPENING on any die, sets the state aimed at, drops queued steps not yet
begun, requests the widths of T1 or T0 on ACTIVE ports and plans the domain steps; it answers ACCEPTED. The state in force does
not change yet. pwr.ramp in range sets the settings of the next boundary and answers the limit and the allowance they give. -/
def Obligations.PowerCommandsComplete : Prop :=
  ∀ (s : State) (f : Frame),
    (s.accepts { op := 0x0A01, change := true, len := 4 } f = true →
      let aimed (dest : BitVec 2) : State := ({ s with pow := { s.pow with target := some (dest, 0) } } : State).dropPlan
      Answers (exec (.pwrStateT0 f) s) ((aimed 0).setWidths false).planPower f 0x0A01 .accepted [] ∧
      Answers (exec (.pwrStateT1 f) s) ((aimed 1).setWidths true).planPower f 0x0A01 .accepted [] ∧
      ((∀ d, ∀ e ∈ (s.die d).tab.parts, e.2.state ≠ .opened ∧ e.2.state ≠ .reopening) →
        Answers (exec (.pwrStateT2 f) s) (aimed 2).planPower f 0x0A01 .accepted [] ∧
        Answers (exec (.pwrStateT3 f) s) (aimed 3).planPower f 0x0A01 .accepted [])) ∧
    ∀ (limit : BitVec 32) (tray pace : BitVec 16), s.accepts { op := 0x0A02, change := true, len := 8 } f = true → limit ≠ 0 →
      tray ≠ 0 → tray.toNat ≤ 1000 → pace.toNat ≤ 1000 →
      let r : Ramp := { rackLimit := limit, trayShare := tray, paceShare := pace }
      Answers (exec (.pwrRamp f limit tray pace) s) { s with pow := { s.pow with rampNext := some r } } f 0x0A02 .ok
        (le 4 (if limit = 0xFFFFFFFF then 0xFFFFFFFF
               else limit.toNat * (if pace = 0 then tray.toNat else pace.toNat) / 1000) ++ [r.allowance, 0, 0, 0])

/-- The step at the head of the queue is made once the ramp credit covers it; a finished plan completes the transition. When the
credit covers the step at the head of the queue it is made: the step leaves the queue, its power in microwatts leaves the
credit, and the last step of a domain changes that domain; with no limit it is made at no cost. When no step is left and every
die core the new state needs is good, the state aimed at becomes the state in force with pwr.state_change naming both; entering
T2 goes to FUSE_CHECK, entering T3 to ALWAYS_ON with the dies' state and the identity in force lost. -/
def Obligations.PacedStepsAndTransitions : Prop :=
  ∀ s : State,
    (∀ (e : PwrStep) (rest : List PwrStep), s.pow.steps = e :: rest →
      let paid (c : Nat) : State := { s.fresh with pow := { s.pow with steps := rest, credit := c } }
      let made (c : Nat) : State := if e.last then (paid c).domainChanged e.dom e.on else paid c
      (s.pow.ramp.rackLimit = 0xFFFFFFFF → exec .paceStep s = .next (made s.pow.credit)) ∧
      (s.pow.ramp.rackLimit ≠ 0xFFFFFFFF → e.halfW * 500000 ≤ s.pow.credit →
        exec .paceStep s = .next (made (s.pow.credit - e.halfW * 500000)))) ∧
    ∀ (dest : BitVec 2) (cause : BitVec 8), s.pow.target = some (dest, cause) → s.pow.steps = [] →
      (∀ d, s.wantsCore d = true → (s.die d).on = true) →
      let t : State := ({ s.fresh with pow := { s.pow with state := dest, target := none } } : State).raiseTray 0x0A80
        (dest.setWidth 8) [s.pow.state.setWidth 8, cause]
      (dest.toNat ≤ 1 → exec .pwrTransitionDone s = .next t) ∧
      (dest = 2 → exec .pwrTransitionDone s =
        .next { t with boot := { t.boot with stage := .fuseCheck, stageTick := t.boot.now } }) ∧
      (dest = 3 → exec .pwrTransitionDone s =
        .next { t with q0 := {}, q1 := {}, q2 := {}, q3 := {},
                       boot := { t.boot with identify := false, identifyNext := none, ident := none, stage := .alwaysOn, stageTick := t.boot.now } })

/-- The input switch, a busbar dropout, loss of the always-on block and a wake change the power state as stated. Closing the open
input switch takes the tray to stage ALWAYS_ON and state T0 and plans the domains; a dropout with the switch closed, and a pending
shutdown, put the tray into T3 with every switched domain off, no step queued, no identity in force and every die without power;
loss of the always-on block leaves the reset state but for the fuses and audit log, the flash (images, staging, boot and armed bank,
descriptor, keys, identity records), tick priority and period, and what is plugged in; a wake in T3 with the input on and no
condition at its shutdown level aims at T0 and plans the domains. -/
def Obligations.InputAndWakeComplete : Prop :=
  ∀ s : State,
    (s.boot.inputOn = false → exec .inputSwitchClose s =
      .next ({ s.fresh with pow := { s.pow with state := 0 },
                            boot := { s.boot with inputOn := true, stage := .alwaysOn, stageTick := s.boot.now } } : State).planPower) ∧
    (∀ i : Instr, i = .busbarDropout ∧ s.boot.inputOn = true ∨ i = .shutdownExecute ∧ s.pow.shutdown.isSome = true ∧ s.waits 6 = false →
      ∃ t, exec i s = .next t ∧ t.pow.state = 3 ∧ t.pow.target = none ∧ t.pow.domains = 0 ∧ t.pow.steps = [] ∧
        t.pow.shutdown = none ∧ t.boot.ident = none ∧ t.boot.identify = false ∧ t.boot.identifyNext = none ∧ t.boot.stage = .alwaysOn ∧
        (∀ d, (t.die d).on = false) ∧ (∀ c : BayId, (t.bay c).domB = false) ∧ t.fuse = s.fuse ∧ t.tok = s.tok ∧
        t.fw = s.fw ∧ t.boot.records = s.boot.records ∧ t.boot.now = s.boot.now) ∧
    exec .alwaysOnLoss s = .next { State.reset with
      fuse := { s.fuse with op := none }
      boot := { records := s.boot.records, cabled := s.boot.cabled }
      tok := { store := s.tok.store }
      fw := { bank0 := s.fw.bank0, bank1 := s.fw.bank1, bootBank := s.fw.bootBank, armed := s.fw.armed, staged := s.fw.staged
              bytes := s.fw.bytes, desc := s.fw.desc }
      elect := { priority := s.elect.priority, period := s.elect.period }
      bays := Map.mapVal s.bays fun _ b => { state := if b.state == .empty then .empty else .domainA }
      free := s.free
      pending := s.pending } ∧
    ∀ b : Bool, s.boot.inputOn = true → s.pow.state = 3 → s.pow.target = none → s.tooHot = false →
      exec (.wake b) s = .next ({ s.fresh with pow := { s.pow with target := some (0, 0) } } : State).planPower

/-- Samples, the 8-step data cap, lane-group shedding and return, and the clearing of a grade do what the grades call for. A
sample is kept as the latest with its tick; in ALWAYS_ON it only counts. What comes before its time (10 ms between samples, 1 ms between
steps of the data cap, 100 ms between groups shed by a die and between groups returned, the second of a shutdown) changes
nothing. A step of the data cap adds one of 8 while GRADE is not
0, and one is lifted while it is 0 and no lane group is shed; each bay at its warning temperature steps likewise. While a shed-
level condition holds, a die with fewer than four groups shed sheds the highest group of its role's range that carries a port in
service; at GRADE 0 the lowest-numbered die with a shed group returns the one shed last. After 1,000 clear samples with no
shutdown pending GRADE returns to 0 with pwr.thermal, whose sensor and reading are free values. -/
def Obligations.SensorsAndGradedResponses : Prop :=
  ∀ s : State,
    (∀ k, s.waits k = true →
      (∀ r, k = 7 → exec (.sensorSample r) s = .next s.fresh) ∧ (k = 5 → exec .throttleCapStep s = .next s.fresh ∧
      exec .throttleCapLift s = .next s.fresh) ∧ (∀ d : DieId, k = d.val → exec (.laneGroupShed d) s = .next s.fresh) ∧
      (k = 4 → exec .laneGroupReturn s = .next s.fresh) ∧ (k = 6 → exec .shutdownExecute s = .next s.fresh)) ∧
    (∀ r : Sensors, s.waits 7 = false → ∃ t, exec (.sensorSample r) s = .next t ∧ t.waits 7 = true ∧
      t.pow.last = r ∧ t.pow.sampleTick = s.boot.now ∧
      (s.pow.grade.toNat ≤ 3 → s.pow.grade.toNat ≤ t.pow.grade.toNat ∧ t.pow.grade.toNat ≤ 3) ∧
      t.pow.domains = s.pow.domains ∧ t.pow.state = s.pow.state ∧ (∀ d, t.die d = s.die d) ∧ t.fuse = s.fuse ∧ t.tok = s.tok ∧
      (∀ e ∈ sensorLevels r, Map.lookD t.pow.conds e.1 {} = (Map.lookD s.pow.conds e.1 {}).sample e.2) ∧
      (s.boot.stage = .alwaysOn → t.evs = s.evs ∧ t.pow.grade = s.pow.grade ∧ t.pow.shutdown = s.pow.shutdown)) ∧
    (s.waits 5 = false → ∃ t, exec .throttleCapStep s = .next t ∧
      t = { s.fresh with pow := { s.pow with cap := t.pow.cap, bayCap := t.pow.bayCap, timers := t.pow.timers } } ∧
      t.pow.timers = (if t.pow.cap = s.pow.cap ∧ t.pow.bayCap = s.pow.bayCap then s.pow.timers else (s.startTimer 5 1).pow.timers) ∧
      t.pow.cap = (if s.pow.grade = 0 then s.pow.cap else if s.pow.cap < 8 then s.pow.cap + 1 else s.pow.cap) ∧
      ∀ c : BayId, t.pow.bayStep c.val =
        if 3 ≤ (s.bay c).warm ∧ s.pow.bayStep c.val < 8 then s.pow.bayStep c.val + 1 else s.pow.bayStep c.val) ∧
    (s.waits 5 = false → ∃ t, exec .throttleCapLift s = .next t ∧
      t = { s.fresh with pow := { s.pow with cap := t.pow.cap, bayCap := t.pow.bayCap, timers := t.pow.timers } } ∧
      t.pow.timers = (if t.pow.cap = s.pow.cap ∧ t.pow.bayCap = s.pow.bayCap then s.pow.timers else (s.startTimer 5 1).pow.timers) ∧
      t.pow.cap = (if s.pow.grade = 0 ∧ ∀ d, (s.die d).shed = [] then s.pow.cap - 1 else s.pow.cap) ∧
      (Map.wf s.pow.bayCap = true → ∀ c : BayId, t.pow.bayStep c.val =
        if 3 ≤ (s.bay c).warm then s.pow.bayStep c.val else s.pow.bayStep c.val - 1)) ∧
    (∀ (d : DieId) (g : Nat), s.waits d.val = false → s.pow.grade = 2 → (∃ e ∈ s.pow.conds, 3 ≤ e.2.shed) → (s.die d).on = true →
      (s.die d).shed.length < 4 → (if s.isSpine then 0 else 8) ≤ g → g < 16 → g ∉ (s.die d).shed →
      (∃ i, i < 4 ∧ ((s.die d).port (4 * g + i)).inService = true) →
      (∀ h, g < h → h < 16 → h ∈ (s.die d).shed ∨ ∀ i, i < 4 → ((s.die d).port (4 * h + i)).inService = false) →
      exec (.laneGroupShed d) s =
        .next ((s.fresh.modDie d fun x => { x with shed := x.shed ++ [g] }).startTimer d.val 100).planPower) ∧
    (∀ d : DieId, s.waits 4 = false → s.pow.grade = 0 → (s.die d).shed ≠ [] → (∀ e : DieId, e < d → (s.die e).shed = []) →
      exec .laneGroupReturn s =
        .next ((s.fresh.modDie d fun x => { x with shed := x.shed.dropLast }).startTimer 4 100).planPower) ∧
    (s.pow.grade ≠ 0 → 1000 ≤ s.pow.clear → s.pow.shutdown = none →
      exec .gradeClear s =
        .next (({ s.fresh with pow := { s.pow with grade := 0 }, free := s.free + 1 } : State).raiseTray 0x0A81 0
          ([fld (Config.clearDetail s.free) 0 8, 0] ++ le 2 (fld (Config.clearDetail s.free) 8 16).toNat)))

/-- The image check, FUSE_CHECK, core power, full service entry and the watchdog move the FC4 through its stages. In BOOT, with
no ROM service, an image that passes moves the FC4 to FUSE_CHECK running that bank, with BOOT_BANK written and ARMED_BANK
cleared; when none passes the ROM serves. FUSE_CHECK, with an empty audit log whose counts match and no die powered, discards
stored keys that do not match, takes the identity record that ID_REWRITE selects, with tick priority 0 on a LEAF and a caddy whose type
its role does not permit in its bay refused with cause 2, and then plans the domains; it waits in MANAGER_WAIT when there is none.
A die core that has become good counts on from 0, or from the always-on counter after retention. In PRE_WARM with all four bits
of FULL_COND set every powered die and the tray enter full service. A watchdog expiry outside ALWAYS_ON records core and code
and makes a reset due. -/
def Obligations.BringUpStagesComplete : Prop :=
  ∀ s : State,
    (s.boot.stage = .boot → s.boot.romOnly = false →
      (∀ b, s.bootChoice = some b → ∃ t, exec .bootImageCheck s = .next t ∧ t.boot.stage = .fuseCheck ∧ t.boot.checkDue = true ∧
        t.fw.bootBank = b ∧ t.fw.armed = none ∧ t.fw.runBank = b ∧ t.fw.bank0 = s.fw.bank0 ∧ t.fw.bank1 = s.fw.bank1 ∧
        t.fw.runSecurity = BitVec.ofNat 16 ((s.fw.bank b).field 10 2) ∧ t.fw.descOk = descGood s.fw.desc ∧
        (∀ d, t.die d = s.die d) ∧ t.fuse = s.fuse ∧ t.tok = s.tok) ∧
      (s.bootChoice = none → ∃ t, exec .bootImageCheck s = .next t ∧ t.boot = { s.boot with romOnly := true } ∧
        t.fw = { s.fw with descOk := descGood s.fw.desc } ∧ t.fuse = s.fuse ∧ ∀ d, t.die d = s.die d)) ∧
    (s.boot.stage = .fuseCheck → s.boot.checkDue = true → s.fuse.log = [] → s.countsMatch = true →
      (∀ d, (s.die d).core = .off) →
      let store := Map.keep s.tok.store fun k q => keyHashOf q == s.keyHash k
      (Map.look s.boot.records s.idIndex = none → (∀ c : BayId, (s.bay c).taken = true → 1 ≤ (s.bay c).kind ∧ (s.bay c).kind ≤ 3) →
        exec .fuseCheck s = .next { s.fresh with
          tok := { s.tok with store := store },
          boot := { s.boot with ident := none, checkDue := false, stage := .managerWait, stageTick := s.boot.now } }) ∧
      ∀ r, Map.look s.boot.records s.idIndex = some r →
        ∃ t : State, exec .fuseCheck s = .next t.planPower ∧ t.boot = { s.boot with ident := some r, checkDue := false } ∧
          t.tok = { s.tok with store := store } ∧ t.elect.priority = (if r.spine then s.elect.priority else 0) ∧
          (∀ c : BayId, (s.bay c).taken = true →
            let role := if r.spine then 3 else if c.val % 2 = 0 then 2 else 3
            (s.bay c).kind ≠ role → (r.spine = true ∨ c.val % 2 = 1 ∨ (s.bay c).kind ≠ 1) →
              (t.bay c).taken = false ∧ (t.bay c).cause = 2 ∧ ((s.bay c).state = .active → (t.bay c).state = .refused)) ∧
          t.fuse = s.fuse ∧ t.pow = s.pow ∧ ∀ d, t.die d = s.die d) ∧
    (∀ d : DieId, s.pow.domains.getLsbD (28 * d.val + 27) = true → (s.die d).on = false →
      ∃ t, exec (.dieCorePowerGood d) s = .next t ∧ (t.die d).on = true ∧ (t.die d).full = false ∧
        ((s.die d).core = .off → t.die d = { core := .on, tick := { period := s.elect.period } }) ∧
        ((s.die d).core = .retention → (t.die d).now = s.boot.now ∧ (t.die d).tab = (s.die d).tab) ∧
        (∀ e, e ≠ d → t.die e = s.die e) ∧ t.fuse = s.fuse ∧ t.tok = s.tok ∧ t.pow.domains = s.pow.domains) ∧
    (s.boot.stage = .preWarm → s.fullCond = 15 →
      ∃ t, exec .fullServiceEntry s = .next t ∧ t.boot.stage = .full ∧
        ∀ d, t.die d = if (s.die d).on then { s.die d with full := true } else s.die d) ∧
    ∀ (core : Fin 4) (code : BitVec 32), s.boot.stage ≠ .alwaysOn →
      exec (.watchdogExpiry core code) s =
        .next { s.fresh with boot := { s.boot with faultCode := some (core, code), resetDue := some 1 } }

/-- An FC4 reset clears keys, nonces, slots, event queues and settings, keeps fuses, token, tables and die power, and begins at
BOOT. With a reset due and the token's lapse tick no more than one heartbeat period past: the FC4 is in BOOT with the cause
recorded; cached keys, nonces, sequences, claims, mailbox slots, subscribers, kept sweeps, a fuse operation under way and the
pacing settings are gone; the token epoch and holder, fuse array, audit log, flash records, identity in force, domains and the
tables of every die are kept, the lapse tick is not earlier than one heartbeat period from now, and what the event queues, the
mailbox and the kept sweeps held makes no difference to what the reset leaves. -/
def Obligations.ResetKeepsWhatItMust : Prop :=
  ∀ (s : State) (cause : BitVec 8), s.boot.resetDue = some cause →
    ∃ t, exec .fc4Reset s = .next t ∧ t.boot.stage = .boot ∧ t.boot.resetCause = cause ∧ t.boot.resetDue = none ∧
      t.boot.bootTick = s.boot.now ∧ t.boot.ready = false ∧ t.boot.identify = false ∧ t.boot.faultCode = none ∧
      t.tok.keys = [] ∧ t.tok.nonces = [] ∧ t.tok.seqs = [] ∧ t.tok.claims = [] ∧ t.mbx.slots = [] ∧ t.mbx.copies = [] ∧
      t.evs.subs = [] ∧ (∀ e m w, exec .fc4Reset { s with evs := e, mbx := m, sweeps := w } = exec .fc4Reset s) ∧
      t.sweeps = [] ∧ t.fuse.op = none ∧ t.pow.ramp = {} ∧ t.tok.epoch = s.tok.epoch ∧
      t.tok.holder = s.tok.holder ∧ t.fuse.bits = s.fuse.bits ∧ t.fuse.log = s.fuse.log ∧ t.boot.records = s.boot.records ∧
      t.boot.ident = s.boot.ident ∧ t.pow.domains = s.pow.domains ∧ t.pow.state = s.pow.state ∧
      (∀ d, (t.die d).core = (s.die d).core ∧ (t.die d).tab.parts = (s.die d).tab.parts ∧
        (t.die d).tab.route0 = (s.die d).tab.route0 ∧ (t.die d).tab.route1 = (s.die d).tab.route1 ∧
        (t.die d).tab.groups = (s.die d).tab.groups ∧ (t.die d).tab.circuits = (s.die d).tab.circuits ∧
        (t.die d).tab.dir = (s.die d).tab.dir ∧ (t.die d).full = (s.die d).full) ∧
      (s.tok.holder.isSome = true → reached s.tok.lapse (s.boot.now + BitVec.ofNat 48 s.hb) = false →
        t.tok.lapse = s.boot.now + BitVec.ofNat 48 s.hb)

/-- Each fuse command in range begins one fuse operation: an INTENT record and the use of the bits it names. When no fuse
operation runs and the audit log has room: key_program of an EMPTY slot begins the use that programs the hash's 1 bits and
KEY_PROG, its pending record written first; key_revoke of an ACTIVE slot, another being ACTIVE, the use of KEY_REV;
rollback_advance by one to a floor that the running image meets, the lowest clear bit of the field; a GRANT or DENY bit that is
0, that bit; debug unlock and lock, the lowest clear bit of their fields. Each appends exactly one INTENT record to the log,
answers ACCEPTED and programs no bit yet. -/
def Obligations.FuseCommandsBeginTheirUse : Prop :=
  ∀ (s : State) (f : Frame), s.fuse.op = none → s.fuse.log.length ≤ 510 →
    let begins (s : State) (u : FuseUse) : State :=
      let t := s.audit 1 u f.cred (s.tok.epoch.setWidth 8)
      { t with fuse := { t.fuse with op := some { uses := [u], cred := f.cred, epoch := s.tok.epoch.setWidth 8 } } }
    let cmd (op len : Nat) : Cmd := { op := op, change := true, len := len }
    (∀ u, (begins s u).fuse.bits = s.fuse.bits ∧ (begins s u).fuse.log.length = s.fuse.log.length + 1) ∧
    (∀ (k : Fin 4) (hash : BitVec 384),
      s.accepts { cmd 0x0D02 52 with unsignedOk := s.noKeys && (f.chan == .mspA || f.chan == .mspB) } f = true →
      s.keyState k.val = 0 →
      Answers (exec (.fuseKeyProgram f (BitVec.ofNat 8 k.val) hash) s)
        (begins { s with fuse := { s.fuse with pending := some (k, hash, true) } }
          { setting := 1, bit := 64 + 392 * k.val, detail := le 1 k.val,
            mask := (hash.setWidth 4096 <<< (64 + 392 * k.val)) ||| (1#4096 <<< (448 + 392 * k.val)) }) f 0x0D02 .accepted []) ∧
    (∀ k : Fin 4, s.accepts (cmd 0x0D03 4) f = true → s.keyState k.val = 1 →
      (∃ j : Fin 4, j ≠ k ∧ s.keyState j.val = 1) →
      Answers (exec (.fuseKeyRevoke f (BitVec.ofNat 8 k.val)) s) (begins s (oneBit 2 (449 + 392 * k.val) (le 1 k.val))) f
        0x0D03 .accepted []) ∧
    (∀ (n : Byte) (b : Nat), s.accepts (cmd 0x0D04 4) f = true → n.toNat ≤ 128 → n.toNat = s.floor + 1 →
      n.toNat ≤ s.fw.runSecurity.toNat → s.fuseNext 1632 128 = some b →
      Answers (exec (.fuseRollbackAdvance f n) s) (begins s (oneBit 3 b (le 1 n.toNat))) f 0x0D04 .accepted []) ∧
    (∀ (peer : Bool) (bit : Fin 5), s.accepts (cmd 0x0D05 4) f = true →
      let base := if peer then 1800 else 1784
      let cls : Byte := if peer then 1 else 0
      (s.fuseBit (base + bit.val) = false →
        Answers (exec (.fusePrivilegeGrant f cls (BitVec.ofNat 8 bit.val)) s) (begins s (oneBit 7 (base + bit.val) (le 1 bit.val)))
          f 0x0D05 .accepted []) ∧
      (s.fuseBit (base + 8 + bit.val) = false →
        Answers (exec (.fusePrivilegeDeny f cls (BitVec.ofNat 8 bit.val)) s)
          (begins s (oneBit 7 (base + 8 + bit.val) (le 1 bit.val))) f 0x0D05 .accepted [])) ∧
    (s.accepts (cmd 0x0D06 4) f = true →
      (∀ b, s.debugLocked = true → s.fuseNext 1780 3 = some b →
        Answers (exec (.fuseDebugUnlock f) s) (begins s (oneBit 5 b [])) f 0x0D06 .accepted []) ∧
      ∀ b, s.debugLocked = false → s.fuseNext 1776 4 = some b →
        Answers (exec (.fuseDebugLock f) s) (begins s (oneBit 6 b [])) f 0x0D06 .accepted [])

/-- A use whose read-back passes programs its bits and logs COMPLETE; one that fails ends the operation. For the use at the head of
the operation under way, of any setting: when its bits read back as they were to be programmed (for a key program, the whole of its
hash and KEY_PROG), exactly its bits are added to the fuse array and one COMPLETE record is appended; then a revocation drops the
slot's cached key, and the token with it when the slot holds it, and an identity step writes its record to flash; the last use ends the
operation and raises fuse.done with cause 0, and any other is followed by the INTENT record of the next use, with no event. When
read-back fails, a free subset of its bits is added, no COMPLETE record is written, the operation ends and fuse.done carries cause 1.
With no operation under way nothing changes. -/
def Obligations.FuseUseEnds : Prop :=
  (∀ (s : State) (b : Bool), s.fuse.op = none → exec (.fuseUseComplete b) s = .next s.fresh) ∧
  ∀ (s : State) (o : FuseOp) (u : FuseUse) (rest : List FuseUse), s.fuse.op = some o → o.uses = u :: rest →
    let burnt (m : BitVec 4096) : State := { s.fresh with free := s.free + 1, fuse := { s.fuse with bits := s.fuse.bits ||| m } }
    let failed (m : BitVec 4096) : State :=
      ({ burnt m with fuse := { s.fuse with bits := s.fuse.bits ||| m, op := none } } : State).raiseFuseDone true u (s.fuse.log.length - 1)
    let reads : Prop := u.setting ≠ 1 ∨ (s.fuse.bits ||| u.mask).extractLsb' u.bit 385 = u.mask.extractLsb' u.bit 385
    (reads →
      let v := (burnt u.mask).audit 2 u o.cred o.epoch
      let k := (u.bit - 449) / 392
      let w : State :=
        if u.setting = 2 then
          { v with tok := { v.tok with keys := Map.rem v.tok.keys k,
                                       holder := if v.tok.holder.map (·.val) = some k then none else v.tok.holder } }
        else match (if u.setting = 4 then o.ident else none) with
          | some r => ({ v with boot := { v.boot with records := Map.put v.boot.records r.index r } } : State).flashOp [r.record]
          | none => v
      (rest = [] → ∃ t, exec (.fuseUseComplete true) s = .next t ∧ t.fuse.bits = s.fuse.bits ||| u.mask ∧ t.fuse.op = none ∧
        t.fuse.log.length = s.fuse.log.length + 1 ∧
        t = ({ w with fuse := { w.fuse with op := none } } : State).raiseFuseDone false u s.fuse.log.length) ∧
      ∀ (next : FuseUse) (more : List FuseUse), rest = next :: more →
        ∃ t, exec (.fuseUseComplete true) s = .next t ∧ t.fuse.bits = s.fuse.bits ||| u.mask ∧ t.evs = s.evs ∧
          t.fuse.op = some { o with uses := rest } ∧ t.fuse.log.length = s.fuse.log.length + 2 ∧
          t = { w.audit 1 next o.cred o.epoch with
                fuse := { (w.audit 1 next o.cred o.epoch).fuse with op := some { o with uses := rest } } }) ∧
    (¬ reads → exec (.fuseUseComplete true) s = .next (failed u.mask)) ∧
    exec (.fuseUseComplete false) s = .next (failed (u.mask &&& Config.fuseStuck s.free))

/-- fw.write, fw.verify and fw.activate change the bank that does not run, its staged state and the armed bank. fw.write of a
multiple of 4 bytes, at most 3,960, within the bank writes exactly those bytes of the bank that does not run (every other byte of
both banks reads as before), stages it, counts its bytes and programs the flash; other lengths and offsets answer BAD_FIELD and
change nothing. fw.verify answers ACCEPTED and marks the verification under way; its end stages the image as verified where the
checks of R490 find no cause and as failed otherwise, and raises fw.done with the cause and SECURITY_VERSION; with no verification
under way, or for the bank that runs, that end changes nothing. fw.activate of a verified or armed image, while no fuse operation
runs, arms the bank that does not run and writes the bank select record; MODE now also makes a reset due with cause 3. Of an image
in another state it answers BAD_FIELD, and while a fuse operation runs BUSY, and changes nothing. -/
def Obligations.FirmwareCommandsComplete : Prop :=
  ∀ (s : State) (f : Frame),
    (∀ (off : BitVec 32) (data : List Byte), s.accepts { op := 0x0E01, change := true, len := 8 + data.length } f = true →
      let ok : Prop := data.length % 4 = 0 ∧ data.length ≤ 3960 ∧ off.toNat + data.length ≤ 16777216
      (ok → s.memoriesWf = true →
        ∃ t, Answers (exec (.fwWrite f off data) s) t f 0x0E01 .ok [] ∧ t.fw.bank s.fw.runBank = s.fw.bank s.fw.runBank ∧
          (∀ a, t.stagedBank.bytes a 1 =
            if off.toNat ≤ a ∧ a < off.toNat + data.length then [data.getD (a - off.toNat) 0] else s.stagedBank.bytes a 1) ∧
          t.fw.staged = 1 ∧ t.fw.bytes = BitVec.ofNat 32 (s.fw.bytesAfter off.toNat data.length) ∧ t.fw.runBank = s.fw.runBank ∧
          t.fw.armed = s.fw.armed ∧ t.fw.flashBusy = true ∧ t.fw.xip = false ∧ t.memoriesWf = true ∧ t = { s with fw := t.fw }) ∧
      (¬ ok → Answers (exec (.fwWrite f off data) s) s f 0x0E01 .badField [])) ∧
    (s.accepts { op := 0x0E02, change := true, len := 4 } f = true →
      Answers (exec (.fwVerify f) s) { s with fw := { s.fw with staged := 2 } } f 0x0E02 .accepted []) ∧
    (s.fw.staged = 2 →
      let c := s.verifyCause
      exec (.fwVerifyComplete !s.fw.runBank) s =
        .next (({ s.fresh with fw := { s.fw with staged := if c = 0 then 3 else 4 } } : State).raiseTray
          0x0E80 (BitVec.ofNat 8 c) (le 2 (s.stagedBank.field 10 2)))) ∧
    (∀ bank, (s.fw.staged ≠ 2 ∨ bank = s.fw.runBank) → exec (.fwVerifyComplete bank) s = .next s.fresh) ∧
    (s.accepts { op := 0x0E03, change := true, len := 4 } f = true →
      let w : State := { s with fw := { s.fw with armed := some (!s.fw.runBank), staged := 5 } }
      let t := w.flashOp [w.bankRecord]
      ((s.fw.staged = 3 ∨ s.fw.staged = 5) → s.fuse.op = none →
        Answers (exec (.fwActivateNextReset f) s) t f 0x0E03 .ok [] ∧
        Answers (exec (.fwActivateNow f) s) { t with boot := { s.boot with resetDue := some 3 } } f 0x0E03 .ok []) ∧
      ((s.fw.staged = 3 ∨ s.fw.staged = 5) → s.fuse.op ≠ none →
        Answers (exec (.fwActivateNextReset f) s) s f 0x0E03 .busy [] ∧ Answers (exec (.fwActivateNow f) s) s f 0x0E03 .busy []) ∧
      (s.fw.staged ≠ 3 → s.fw.staged ≠ 5 →
        Answers (exec (.fwActivateNextReset f) s) s f 0x0E03 .badField [] ∧
        Answers (exec (.fwActivateNow f) s) s f 0x0E03 .badField []))

/-- An event is queued on every management channel in its sequence, or counted as lost by a full queue, and nothing else
changes. For every state and event: on each of channels 0 to 3 a queue of fewer than 256 events gains the event at its end with
the channel's next sequence number, which then counts on; a full queue keeps its events and counts one lost. Every subscriber of
the event's partition is sent a copy, what has left the tray before is kept, and apart from the event queues, the FC4 counters
and the trace records no state changes. -/
def Obligations.EventsAreQueuedInOrder : Prop :=
  ∀ (s : State) (ev : Event),
    (s.raise ev).calm = s.calm ∧
    (∀ c < 4,
      let q := Map.lookD s.evs.queues c []
      let n := Map.lookD s.evs.next c 0
      let l := Map.lookD s.evs.lost c 0
      let room := decide (q.length < 256)
      Map.lookD (s.raise ev).evs.queues c [] = (if room then q ++ [{ seq := n, ev := ev, sent := s.boot.now }] else q) ∧
      Map.lookD (s.raise ev).evs.next c 0 = (if room then n + 1 else n) ∧
      Map.lookD (s.raise ev).evs.lost c 0 = if room then l else l + 1) ∧
    (∃ l, (s.raise ev).out = s.out ++ l) ∧
    ∀ u ∈ Map.lookD s.evs.subs ev.part.toNat [], Out.inband u.d u.port ev ∈ (s.raise ev).out

/-- evt.ack takes events off its channel, subscriptions are kept once each up to four, unacknowledged events go out again. An
accepted evt.ack of a sequence below the channel's next removes the events up to it from that channel's queue of at most 256,
and posts evt.lost with the count when that frees an entry and events were lost. evt.subscribe of an in-band requester registers
it once, of at most four, and answers the number; evt.unsubscribe removes it. The retransmission sends each unacknowledged event
of the two Ethernet channels that was last sent 10 ms ago or more, oldest first, as a datagram where the channel has a peer (R392),
notes the tick, and changes nothing else. -/
def Obligations.EventCommandsComplete : Prop :=
  ∀ (s : State) (f : Frame),
    (∀ q : BitVec 32, s.accepts { op := 0x0C40, change := false, len := 4 } f = true →
      let c := chanNum f.chan
      let l := Map.lookD s.evs.queues c []
      let rest := l.filter fun e => decide (q.toNat < e.seq.toNat)
      let n := Map.lookD s.evs.lost c 0
      let next := Map.lookD s.evs.next c 0
      let gone : Event := { Event.mk0 0x0C80 s.boot.now with detail := le 4 n.toNat }
      q.toNat < next.toNat → l.length ≤ 256 →
      (rest.length = l.length ∨ n = 0 →
        Answers (exec (.evtAck f q) s) { s with evs := { s.evs with queues := Map.put s.evs.queues c rest } } f 0x0C40 .ok []) ∧
      (rest.length < l.length → n ≠ 0 →
        ∃ t, Answers (exec (.evtAck f q) s) t f 0x0C40 .ok [] ∧ t.calm = s.calm ∧ t.evs.lost = Map.rem s.evs.lost c ∧
          Map.lookD t.evs.queues c [] = rest ++ [{ seq := next, ev := gone, sent := s.boot.now }] ∧ Map.lookD t.evs.next c 0 = next + 1)) ∧
    (∀ (d : DieId) (part : BitVec 4), f.chan = .ib d →
      s.accepts { op := 0x0C41, change := true, cap := some 3, len := 4, part := some (part.setWidth 8) } f = true →
      let l := Map.lookD s.evs.subs part.toNat []
      let u : Sub := { d := d, port := f.port.val,
                       ep := if s.isDown f.port.val then s.endpointId d f.port.val else f.origin.setWidth 11 }
      let set (m : List Sub) : State := { s with evs := { s.evs with subs := Map.put s.evs.subs part.toNat m } }
      (u ∈ l → Answers (exec (.evtSubscribe f (part.setWidth 8)) s) (set l) f 0x0C41 .ok [BitVec.ofNat 8 l.length, 0, 0, 0]) ∧
      (u ∉ l → l.length < 4 → Answers (exec (.evtSubscribe f (part.setWidth 8)) s) (set (l ++ [u])) f 0x0C41 .ok
        [BitVec.ofNat 8 (l.length + 1), 0, 0, 0]) ∧
      (u ∉ l → 4 ≤ l.length → Answers (exec (.evtSubscribe f (part.setWidth 8)) s) s f 0x0C41 .busy []) ∧
      Answers (exec (.evtUnsubscribe f (part.setWidth 8)) s) (set (l.filter fun v => v != u)) f 0x0C41 .ok
        [BitVec.ofNat 8 (l.filter fun v => v != u).length, 0, 0, 0]) ∧
    let due (e : EvRec) : Bool := decide (s.msTicks 10 ≤ (s.boot.now - e.sent).toNat)
    ∃ t, exec .eventRetransmit s = .next t ∧ t = { s with out := t.out, evs := { s.evs with queues := t.evs.queues } } ∧
      t.out = ([0, 1].flatMap fun c => ((Map.lookD s.evs.queues c []).filter due).flatMap fun e =>
        Out.event (chanOf c) e.seq e.ev :: s.eventLink c) ∧
      ∀ c, Map.lookD t.evs.queues c [] = if c < 2 then (Map.lookD s.evs.queues c []).map fun e =>
        if due e then { e with sent := s.boot.now } else e else Map.lookD s.evs.queues c []

/-- diag.write needs a debug-unlocked FC4, diag.loop starts one loop on a die, and its end reports the counts. An accepted
diag.write of 1 to 989 words answers DEBUG_LOCKED and changes nothing while the FC4 is debug-locked; otherwise window 0 of a
powered die marks the die as bound by no rule until its next bring-up, and window 1 changes no modelled state. diag.loop of 1 to
256 packets of at most 4,096 bytes, a multiple of 4, on a powered die with no loop under way begins the loop and answers ACCEPTED: as
many of its DIAG packets as segment 47 has room for enter it behind what the die holds, on their way to port 71, the others wait, and
nothing else of the tray changes; with a loop under way it answers BUSY. Once no packet waits or is held for port 71, the end of the
loop clears it and raises diag.done with the counts, and before that it changes nothing. -/
def Obligations.DiagnosticsComplete : Prop :=
  ∀ (s : State) (f : Frame) (d : DieId),
    (∀ (a : BitVec 32) (ws : List (BitVec 32)), s.accepts { op := 0x0C31, change := true, len := 12 + 4 * ws.length } f = true →
      1 ≤ ws.length → ws.length ≤ 989 →
      (s.debugLocked = true → ∀ w : Bool,
        Answers (exec (.diagWrite f (BitVec.ofNat 8 d.val) (if w then 1 else 0) a ws) s) s f 0x0C31 .debugLocked []) ∧
      (s.debugLocked = false →
        Answers (exec (.diagWrite f (BitVec.ofNat 8 d.val) 1 a ws) s) s f 0x0C31 .ok [] ∧
        ((s.die d).on = true → Answers (exec (.diagWrite f (BitVec.ofNat 8 d.val) 0 a ws) s)
          (s.setDie d { s.die d with unbound := true }) f 0x0C31 .ok []))) ∧
    (∀ n len : BitVec 16, s.accepts { op := 0x0C32, change := true, len := 8 } f = true → 1 ≤ n.toNat → n.toNat ≤ 256 →
      len.toNat ≤ 4096 → len.toNat % 4 = 0 → (s.die d).on = true →
      let x := s.die d
      (x.loop = none → ∃ (new : List Held) (wait : Nat), wait + new.length = n.toNat ∧
        (new.length < n.toNat → (x.hasRoom 128 len.toNat = false ∨ new ≠ [])) ∧
        (∀ h ∈ new, h.outPort = 71 ∧ h.seg = 47 ∧ h.bin = .queue ∧ h.hdr.type = 0x1F ∧ h.hdr.len = len.setWidth 13 ∧
          h.data = (List.range len.toNat).map Config.diagByte) ∧
        Answers (exec (.diagLoop f (BitVec.ofNat 8 d.val) 71 n len) s)
          (s.setDie d { x with loop := some { count := n.toNat, len := len.toNat, queued := wait }, held := x.held ++ new,
                               nextId := x.nextId + new.length }) f 0x0C32 .accepted []) ∧
      (x.loop ≠ none → Answers (exec (.diagLoop f (BitVec.ofNat 8 d.val) 71 n len) s) s f 0x0C32 .busy [])) ∧
    ∀ l, (s.die d).loop = some l →
      (l.queued = 0 → (∀ h ∈ (s.die d).held, h.outPort ≠ 71) →
        exec (.loopbackComplete d) s = .next ((s.fresh.setDie d { s.die d with loop := none }).raiseDie 0x0C82 d 71 0xFF 0xFF 0
          (le 2 l.sent ++ le 2 l.received ++ le 2 l.mismatched))) ∧
      ((l.queued ≠ 0 ∨ ∃ h ∈ (s.die d).held, h.outPort = 71) → exec (.loopbackComplete d) s = .next s.fresh)

/-- A reach notice sets its bit on every powered die, a die that loses power is lost whole, and an ECC error discards what it
hit. On a listening LEAF tray with the sender's class allowed, a sound notice of its plane, newer than the last of that link,
sets or clears bit s of REACH[L] on every powered die, changes no other entry, is remembered, and a loss plans COLL_OUT 2,048
ticks after its declaration; one that is not newer changes nothing. A die that loses power is as after reset, its switched
domains are off and those of others as before. An ECC error in a held packet removes it, in a valid directory entry clears its
VALID bit and no other entry's, and in a pot is reported and aborts the pour that holds it, if one does, with TIMEOUT. -/
def Obligations.FaultSignalsComplete : Prop :=
  ∀ (s : State) (d : DieId), (s.die d).on = true →
    (∀ (p : PortId) (q : Fin 32) (l : Fin 64) (up : Bool) (decl : Tick), s.listening = true → s.isLeaf = true →
      s.holds (!s.isDown p.val) 4 = true →
      let i : Instr :=
        .faultReach d p true (BitVec.ofNat 8 s.plane) (BitVec.ofNat 8 q.val) (BitVec.ofNat 8 l.val) (if up then 1 else 0) decl
      ((∀ t, Map.look s.notes.applied (64 * q.val + l.val) = some t → later decl t = true) →
        ∃ t, exec i s = .next t ∧ t.out = [] ∧ t.notes.applied = Map.put s.notes.applied (64 * q.val + l.val) decl ∧
          ∀ e, ((s.die e).on = false → t.die e = s.die e) ∧
            ((s.die e).on = true →
              (∀ k, (t.die e).tab.reachOf k =
                if k = l.val then setBit ((s.die e).tab.reachOf k) q.val up else (s.die e).tab.reachOf k) ∧
              (t.die e).view = (s.die e).view ∧ (t.die e).held = (s.die e).held ∧ (t.die e).ports = (s.die e).ports ∧
              (up = false → (t.die e).collNext = (s.die e).collNext ++ [(decl + 2048, q.val, true)]))) ∧
      ((∃ t, Map.look s.notes.applied (64 * q.val + l.val) = some t ∧ later decl t = false) → exec i s = .next s.fresh)) ∧
    (∃ t, exec (.diePowerLost d) s = .next t ∧ t.die d = {} ∧ t.fuse = s.fuse ∧ t.tok = s.tok ∧ t.boot = s.boot ∧ t.fw = s.fw ∧
      t.pow.state = s.pow.state ∧ ∀ k < 133, t.pow.domains.getLsbD k = (s.pow.domains.getLsbD k && k / 28 != d.val)) ∧
    (∀ (id : Nat) (h : Held), (s.die d).held.find? (fun h => h.id == id) = some h →
      ∃ t, exec (.eccError d (.packet id)) s = .next t ∧ (t.die d).held = (s.die d).held.filter (fun h => !(h.id == id)) ∧
        (t.die d).tab = (s.die d).tab ∧ (t.die d).ports = (s.die d).ports ∧ ∀ e, e ≠ d → t.die e = s.die e) ∧
    (∀ i < 262144, ((s.die d).tab.entry i).valid = true →
      ∃ t, exec (.eccError d (.entry i)) s = .next t ∧ ((t.die d).tab.entry i).valid = false ∧
        (∀ j, j ≠ i → (t.die d).tab.entry j = (s.die d).tab.entry j) ∧ (t.die d).held = (s.die d).held ∧
        ∀ e, e ≠ d → t.die e = s.die e) ∧
    ∀ n : Fin 64,
      let t := s.fresh.raiseEcc d (match ((s.die d).pot n.val).owner with | some o => o.1.setWidth 8 | none => 0xFF) 0xFF 1 n.val
      (((s.die d).pot n.val).pour = none → exec (.eccError d (.pot n)) s = .next t) ∧
      ∀ k, ((s.die d).pot n.val).pour = some k → exec (.eccError d (.pot n)) s = .next (t.abortPour d k 4)

/-- A routed in-band request is relayed and its response goes back; echo and neighbor requests are answered. On a listening LEAF
tray a sound in-band request with ROUTE 0x80 + i, i 0 to 7, a free slot and an up port in service towards that spine tray holds the
slot and leaves through that port with its ORIGIN, as a mailbox packet that waits for port 70; with no free slot it is answered
BUSY, and with another ROUTE, no such port or on another tray BAD_ROUTE; its response leaves through the port of arrival, with the
slot's opcode, and frees the slot. An ICMPv6 echo request is answered with its identifier, sequence and data, and a solicitation of
the port's own link-local address is answered; nothing else changes. -/
def Obligations.RelayAndIpv6Complete : Prop :=
  ∀ s : State,
    (∀ (f : Frame) (op : BitVec 16) (bs : List Byte) (d : DieId) (i : Fin 8) (k p : Nat), s.listening = true → s.isLeaf = true →
      f.magicOk = true → f.crcOk = true → f.version = 3 → f.chan = .ib d → f.route = BitVec.ofNat 8 (0x80 + i.val) →
      s.freeSlot d = some k → s.relayUpPort d i.val = some p →
      let o := s.originOf f d
      ∃ m : Mail, m.d = d ∧ m.port = p ∧ m.type = 1 ∧ m.tag = some f.tag ∧ exec (.fmpRelay f op bs) s = .next { s with
        mbx := { s.mbx with
          slots := Map.put s.mbx.slots k { op := op, tag := f.tag, port := f.port.val, origin := o },
          relayed := Map.put s.mbx.relayed f.tag.toNat (d, f.port.val, o), outbox := s.mbx.outbox ++ [m] },
        out := [.relay d p op f.tag o 0 bs] }) ∧
    (∀ (f : Frame) (op : BitVec 16) (bs : List Byte) (d : DieId), s.listening = true → f.magicOk = true → f.crcOk = true →
      f.version = 3 → f.chan = .ib d →
      (s.freeSlot d = none → exec (.fmpRelay f op bs) s = .next (s.fresh.answer f op.toNat .busy [])) ∧
      (∀ k, s.freeSlot d = some k → (s.isLeaf = false ∨ (∀ i : Fin 8, f.route ≠ BitVec.ofNat 8 (0x80 + i.val)) ∨
          ∃ i : Fin 8, f.route = BitVec.ofNat 8 (0x80 + i.val) ∧ s.relayUpPort d i.val = none) →
        exec (.fmpRelay f op bs) s = .next (s.fresh.answer f op.toNat .badRoute []))) ∧
    (∀ (d : DieId) (p : PortId) (tag status : BitVec 16) (bs : List Byte) (port : Nat) (o : BitVec 16),
      Map.look s.mbx.relayed tag.toNat = some (d, port, o) →
      let mine (k : Nat) (r : SlotReq) : Bool := k / 16 == 4 + d.val && r.tag == tag && r.port == port
      ∀ k r, s.mbx.slots.find? (fun e => mine e.1 e.2) = some (k, r) →
        ∃ m : Mail, m.d = d ∧ m.port = port ∧ m.type = 2 ∧ m.tag = some tag ∧ exec (.fmpRelayResponse d p tag status bs) s =
          .next { s with
            mbx := { s.mbx with relayed := Map.rem s.mbx.relayed tag.toNat, slots := Map.keep s.mbx.slots fun k r => !mine k r,
                                outbox := s.mbx.outbox ++ [m] },
            out := [.relay d port r.op tag o status bs] }) ∧
    (s.listening = true → s.boot.romOnly = false → ∀ (eth1 : Bool) (src : BitVec 128),
      (∀ (ident seqNo : BitVec 16) (bs : List Byte),
        exec (.icmpv6Echo eth1 src ident seqNo bs) s = .next { s with out := [.icmp eth1 src ident seqNo bs] }) ∧
      exec (.neighborDiscovery eth1 src (linkLocal eth1)) s = .next { s with out := [.neighbor eth1 src (linkLocal eth1)] } ∧
      ∀ target, target ≠ linkLocal eth1 → exec (.neighborDiscovery eth1 src target) s = .next s.fresh)

/-- An MSP frame clocked in whole sends the pending reply and leaves its own reply pending, with the operation carried out. For
a sound header, the pending reply ready and the reply segment clocked out whole, the segment goes out in transfers of the lanes in
force, and then: a payload whose CRC fails is answered RCODE 1, and WRITE, DOORBELL, READ_RESP and READ_EVENT in ALWAYS_ON RCODE 7, and
nothing else happens; otherwise POLL, WRITE (slot not BUSY, within its 4,096 bytes), DOORBELL of a WRITTEN slot, READ_RESP of a slot not
BUSY with a response, READ_EVENT of a queued event or, for 0xFFFFFFFF, of the first not yet returned, SET_LINK of 2, 4 or 8 lanes and
STATUS carry out their work, and each other case answers RCODE 3, 4, 5 or 6 and changes nothing; each leaves its reply, not yet ready. A
segment not clocked out whole goes out as far as it was clocked, and nothing else happens. A reply not ready is counted and its
transaction carries out nothing. A header that is not sound drives no lane and is counted. REPLY_READY makes the pending reply ready. -/
def Obligations.MspOperationsComplete : Prop :=
  ∀ (s : State) (x : MspXfer),
    let m := s.msp x.b
    let seg := (m.segment x.mrlen.toNat).1
    let sent (n : Nat) : State := { s with out := [.msp x.b m.lanes.toNat ((seg.take n).flatMap (xfersOf m.lanes.toNat))] }
    let ops (i : Instr) (awake : Bool) (mop : Byte) : Prop :=
      i = .mspPoll x ∧ awake = false ∧ mop = 0 ∨ (∃ off bs, i = .mspWrite x off bs) ∧ awake = true ∧ mop = 1 ∨
      i = .mspDoorbell x ∧ awake = true ∧ mop = 2 ∨ (∃ off, i = .mspReadResp x off) ∧ awake = true ∧ mop = 3 ∨
      (∃ n, i = .mspReadEvent x n) ∧ awake = true ∧ mop = 4 ∨ (∃ n r, i = .mspSetLink x n r) ∧ awake = false ∧ mop = 5 ∨
      i = .mspStatus x ∧ awake = false ∧ mop = 6
    let port := if x.b then 1 else 0
    (xferSound x = true → m.ready = true → seg.length ≤ x.clocked →
      let t : State := { s with out := [.msp x.b m.lanes.toNat (seg.flatMap (xfersOf m.lanes.toNat))] }
      let pends (u : State) (op : Byte) (a : MspAnswer) : Host.Outcome State Fault Refusal :=
        .next (u.setMsp x.b { u.msp x.b with
          reply := { rop := op, rslot := x.mslot, rcode := a.code,
                     rstate := BitVec.ofNat 8 ((u.msp x.b).slot (x.mslot.toNat % 16)).code, total := a.total, data := a.data },
          ready := false })
      let k := x.mslot.toNat
      let c := 16 * mspChan x.b + k
      let q := Map.lookD s.evs.queues (mspChan x.b) []
      let good : Prop := x.mlen = 0 ∨ x.payOk = true
      (∀ i awake mop, ops i awake mop →
        (¬ good → exec i s = pends t mop { code := 1 }) ∧
        (good → awake = true → s.boot.stage = .alwaysOn → exec i s = pends t mop { code := 7 })) ∧
      (good →
        exec (.mspPoll x) s = pends t 0 { code := 0 } ∧
        exec (.mspStatus x) s = pends t 6 { code := 0, total := 16, data := s.mspStatusData x.b } ∧
        ∀ (n r : Byte), exec (.mspSetLink x n r) s =
          if (n = 2 ∨ n = 4 ∨ n = 8) ∧ r.toNat ≤ 1 then pends (t.setMsp x.b { m with lanes := n, repeat_ := r == 1 }) 5 { code := 0 }
          else pends t 5 { code := 4 }) ∧
      (good → s.boot.stage ≠ .alwaysOn →
        (∀ (off : BitVec 16) (bs : List Byte), exec (.mspWrite x off bs) s =
          if k < 16 ∧ m.slot k = .busy then pends t 1 { code := 3 }
          else if k < 16 ∧ off.toNat + bs.length ≤ 4096 then
            pends (t.setMsp x.b { m with buf := Mem.writes 0 m.buf (4096 * k + off.toNat) bs, slots := Map.put m.slots k .written })
              1 { code := 0 }
          else pends t 1 { code := 4 }) ∧
        (exec (.mspDoorbell x) s =
          if k < 16 ∧ m.slot k = .written then
            pends (t.setMsp x.b { m with slots := Map.put m.slots k .busy, taken := Map.rem m.taken k }) 2 { code := 0 }
          else pends t 2 { code := 4 }) ∧
        (∀ off : BitVec 16, exec (.mspReadResp x off) s =
          match (if k < 16 ∧ m.slot k ≠ .busy then Map.look s.mbx.copies c else none) with
          | some r => pends (t.setMsp x.b (if off = 0 then { m with taken := Map.put m.taken k true } else m)) 3
              { code := 0, total := (r.frame k).length, data := ((r.frame k).drop off.toNat).take (x.mrlen.toNat - 8) }
          | none => pends t 3 { code := 5 }) ∧
        ∀ n : BitVec 32, exec (.mspReadEvent x n) s =
          match q.find? (fun e => if n = 0xFFFFFFFF then !e.returned else e.seq == n) with
          | some e =>
            let shown := q.map fun g => if g.seq == e.seq then { g with returned := true } else g
            pends { t with evs := { t.evs with queues := Map.put t.evs.queues (mspChan x.b) shown } } 4
              { code := 0, total := 64, data := (e.frame s.tok.epoch).take (x.mrlen.toNat - 8) }
          | none => pends t 4 { code := 6 })) ∧
    (∀ i awake mop, ops i awake mop →
      (xferSound x = true → m.ready = true → x.clocked < seg.length → exec i s = .next (sent x.clocked)) ∧
      (xferSound x = true → m.ready = false →
        exec i s = .next ((sent x.clocked).countFc (ctrKey 0x22 port 0 0 (if m.repeat_ then 2 else 1)))) ∧
      (xferSound x = false →
        exec i s = .next (({ s with out := [.mspSilent x.b] } : State).countFc (ctrKey 0x22 port 0 0 0)))) ∧
    ∀ b : Bool, exec (.mspReplyReady b) s = .next (s.fresh.setMsp b { s.msp b with ready := true })

/-- A missing line is fetched or waits for the flash; cores sleep, go off and wake; SYNC records are written when due. With the
flash ready, a miss of a line that is kept only makes it the most recently used; of one that is being fetched or waits to be, changes
nothing; of another, on free lines with no miss waiting, begins a read frame at it to the prefetch depth, with its command where the
flash is not in XIP mode, which enters XIP mode when the descriptor is applied; with a frame under way it waits behind the misses before
it. A line whose bytes are in becomes the most recently used of at most 64. While a program or erase runs the miss waits; its end clears
the kept lines and demands each waiting line in order, and without one that end changes nothing. A running core other than MC0 that wrote no
record for 2,048 ticks enters SLEEP with its FIFO delivered, and any other stays as it is (that records are the work of a core is the
model's choice, log entry 140); a core that is not off goes off and its domain bit is cleared; a sleeping core wakes; one that is off
runs once its domain is powered. A SYNC is written when due. -/
def Obligations.FlashAndCoresComplete : Prop :=
  ∀ s : State,
    (∀ (core : Fin 4) (a : BitVec 32),
      let l := a.toNat / 64
      (s.fw.flashBusy = true →
        exec (.xipMiss core a) s = .next { s with out := [], fw := { s.fw with misses := s.fw.misses ++ [(core, l)] } }) ∧
      (s.fw.flashBusy = false → l ∈ s.fw.lines →
        exec (.xipMiss core a) s = .next { s.fresh with fw := { s.fw with lines := useLine s.fw.lines l } }) ∧
      (s.fw.flashBusy = false → l ∉ s.fw.lines →
        (s.fw.fpsm.fetching l = true → exec (.xipMiss core a) s = .next s.fresh) ∧
        (s.fw.fpsm.fetching l = false → s.fw.fpsm.job ≠ none → exec (.xipMiss core a) s = .next { s.fresh with
          fw := { s.fw with fpsm := { s.fw.fpsm with want := s.fw.fpsm.want ++ [(core, l)] } } }) ∧
        (s.fw.fpsm.fetching l = false → s.fw.fpsm.job = none → s.fw.fpsm.want = [] →
          let pins := s.fw.openBoot ++ s.fw.readHead (s.fw.descByte 6) (64 * l) ++ phaseIn 8 true 64
          exec (.xipMiss core a) s = .next { s with
            fw := { s.fw with xip := s.fw.descOk, fpsm := { s.fw.fpsm with
              job := some (.line l (s.fw.depth - 1)), left := s.fw.profile.time (pinCycles pins) } },
            out := [.fpsm pins] }))) ∧
    (∀ l more, s.fw.fpsm.job = some (.line l more) →
      s.endPart.fw.lines = (s.fw.lines.filter (· != l) ++ [l]).drop ((s.fw.lines.filter (· != l)).length - 63)) ∧
    (s.fw.flashBusy = true →
      let w : Firmware := { s.fw with flashBusy := false, lines := [], misses := [] }
      exec .flashOpComplete s = .next (s.fw.misses.foldl (fun (t : State) m => t.demandLine m) { s.fresh with fw := w }).startWork) ∧
    (s.fw.flashBusy = false → exec .flashOpComplete s = .next s.fresh) ∧
    (∀ core : Fin 4, core ≠ 0 → (s.core core.val).cond = .run →
        within s.boot.now (s.core core.val).worked 2048 = false →
      ∃ t, exec (.coreSleep core) s = .next t ∧ (t.core core.val).cond = .sleep ∧ (t.core core.val).fifo = [] ∧
        ∀ c, c ≠ core.val → t.core c = s.core c) ∧
    (∀ core : Fin 4, core = 0 ∨ (s.core core.val).cond ≠ .run ∨ within s.boot.now (s.core core.val).worked 2048 = true →
      exec (.coreSleep core) s = .next s.fresh) ∧
    (∀ core : Fin 4, (s.core core.val).cond ≠ .off →
      ∃ t, exec (.coreOff core) s = .next t ∧ (t.core core.val).cond = .off ∧ (t.core core.val).fifo = [] ∧
        t.pow.domains = setBit s.pow.domains (128 + core.val) false ∧ t.tok = s.tok ∧ t.fuse = s.fuse) ∧
    (∀ core : Fin 4, (s.core core.val).cond = .sleep ∨
        (s.core core.val).cond = .off ∧ s.pow.domains.getLsbD (128 + core.val) = true →
      ∃ t, exec (.coreWake core) s = .next t ∧ (t.core core.val).cond = .run ∧ (t.core core.val).lostSleep = 0 ∧
        t.bare = s.bare ∧ ∀ c, c ≠ core.val → t.core c = s.core c) ∧
    (s.boot.now.toNat % 1048576 = 0 ∨ s.trace.syncDue = true →
      exec .traceSync s = .next (({ s.fresh with trace := { s.trace with syncDue := false } } : State).traceWrite 3 0x03 s.syncPayload)) ∧
    (s.boot.now.toNat % 1048576 ≠ 0 → s.trace.syncDue = false → exec .traceSync s = .next s.fresh)

/-- At a boundary a node counts one tick, the writes of the tick before become visible, and a marker leaves every trained link. For
a powered die with no change of tick parent due: its count rises by one, lookups see the tables as the writes of the tick
that ended left them, counter samples those counters, no entry counts as cleared in this tick, the last received RAMP_ALLOWANCE
applies, the silence of R73 and the HOLDOVER ticks are counted, parent, state, lineage and period stay, no other die changes, and
on every port whose link carries markers a word leaves with a correct MCRC, the new count, and the node's period, hops, epoch and
HOLDOVER bit, and for a die that is not master the RAMP_ALLOWANCE it follows, 0 before its first lock. An unpowered die does
nothing. The always-on block counts one tick, takes the settings of pwr.ramp that wait, and frees a token released for this tick,
its epoch unchanged; no die changes. -/
def Obligations.TickBoundaryMovesTheNode : Prop :=
  ∀ s : State,
    (∀ d : DieId,
      let x := s.die d
      (x.on = false → exec (.tickBoundary ⟨d.val, by omega⟩) s = .next s.fresh) ∧
      (x.on = true → x.tick.nextParent = none →
        ∃ t, exec (.tickBoundary ⟨d.val, by omega⟩) s = .next t ∧ (t.die d).now = x.now + 1 ∧ (t.die d).view = x.tab ∧
          (t.die d).ctrView = x.ctr ∧ (t.die d).cleared = [] ∧ (t.die d).tick.applied = x.tick.allowance ∧
          (t.die d).tick.quiet = (if x.tick.loud then 0 else x.tick.quiet + 1) ∧
          (t.die d).tick.holdTicks = (if x.tick.state = .holdover then x.tick.holdTicks + 1 else x.tick.holdTicks) ∧
          (t.die d).tick.parent = x.tick.parent ∧ (t.die d).tick.state = x.tick.state ∧ (t.die d).tick.epoch = x.tick.epoch ∧
          (t.die d).tick.period = x.tick.period ∧ (∀ e, e ≠ d → t.die e = s.die e) ∧ t.tok = s.tok ∧ t.boot = s.boot ∧
          ∀ p, (x.port p).marks = true → ∃ w, Out.word d p w ∈ t.out ∧ mcrcOk w = true ∧ cwType w = 0xA1 ∧
            mkCount w = x.now + 1 ∧ mkPeriod w = x.tick.period ∧ mkHop w = x.tick.hop ∧ mkEpoch w = x.tick.epoch ∧
            mkHold w = x.tick.sendsHold ∧
            (x.tick.master = false → mkAllow w = if x.tick.everLocked then x.tick.allowance else 0))) ∧
    ∃ t, exec (.tickBoundary 4) s = .next t ∧ t.boot.now = s.boot.now + 1 ∧ t.pow.ramp = s.pow.rampNext.getD s.pow.ramp ∧
      t.pow.rampNext = none ∧ t.pow.allowPrev = s.pow.ramp.allowance ∧ t.tok.epoch = s.tok.epoch ∧
      (∀ r, s.tok.release = some r → reached (s.boot.now + 1) r = true → t.tok.holder = none ∧ t.tok.release = none) ∧
      (∀ r, s.tok.release = some r → reached (s.boot.now + 1) r = false → t.tok = s.tok) ∧
      (s.tok.release = none → t.tok = s.tok) ∧ t.mbx.ctrView = s.mbx.ctr ∧ ∀ d, t.die d = s.die d

/-- Markers, missing markers, the wait after a drop, lock and the holdover limit set the node as chapter 02 states. For a
powered die and a port whose link carries markers: a word that is no marker is only counted; a marker with a wrong MCRC or period
code 3 is counted, is a boundary without a marker, and the node chooses again; a sound marker of the node's lineage with another
period, on any port, puts a node that counts into TICK_FAULT with cause 3. A sound marker of the parent of a node that agrees with
it in lineage or count, and in period, is followed (hops, epoch, allowance, offset, the run of ticks in bound), ends the port's
missing boundaries, locks a node in HOLDOVER that has accepted none from this parent and finds it in bound, and the node chooses
again; with HOLDOVER 1 or 15 hops it drops the parent. A boundary without a marker on a port that has had one is counted, and
the second in a row at the parent drops it: HOLDOVER, remembering tick and lineage. Once 16 ticks have passed since a drop the
lineage may be chosen again. A node with a parent and 16 ticks in bound enters LOCKED. 262,144 ticks of HOLDOVER lead to TICK_FAULT
with cause 1. -/
def Obligations.MarkersKeepTheNode : Prop :=
  ∀ (s : State) (d : DieId), (s.die d).on = true →
    let x := s.die d
    let others (t : State) : Prop := ∀ e, e ≠ d → t.die e = s.die e
    let dropped (t : State) : Prop := (t.die d).tick.state = .holdover ∧ (t.die d).tick.parent = none ∧
      (t.die d).tick.drop = some (x.now, x.tick.epoch)
    (∀ (p : PortId) (w : CtlWord) (a : Int), (x.port p.val).marks = true →
      (cwType w ≠ 0xA1 → exec (.tickMarker d p w a) s = .next (s.fresh.setDie d (x.count (cPort 2 0 p.val)))) ∧
      (cwType w = 0xA1 → mcrcOk w = false → exec (.tickMarker d p w a) s =
        .next (s.fresh.setDie d (((x.count (cPort 2 0 p.val)).count (cPort 4 0 p.val)).missMarker p.val).choose)) ∧
      (cwType w = 0xA1 → mcrcOk w = true → mkPeriod w = 3 → exec (.tickMarker d p w a) s =
        .next (s.fresh.setDie d ((x.count (cPort 4 0 p.val)).missMarker p.val).choose)) ∧
      (cwType w = 0xA1 → mcrcOk w = true → mkPeriod w ≠ 3 →
        ((x.tick.state = .locked ∨ x.tick.state = .holdover) → mkEpoch w = x.tick.epoch → mkPeriod w ≠ x.tick.period →
          ∃ t, exec (.tickMarker d p w a) s = .next t ∧ (t.die d).tick.state = .tickFault ∧ (t.die d).tick.faultCause = 3 ∧
            (t.die d).tick.parent = none ∧ others t) ∧
        (x.tick.parent = some p → mkPeriod w = x.tick.period →
          ((mkHold w = true ∨ mkHop w = 15) →
            ∃ t, exec (.tickMarker d p w a) s = .next t ∧ dropped t ∧ ((t.die d).port p.val).missing = 0 ∧ others t) ∧
          (mkHold w = false → mkHop w ≠ 15 → x.tick.state ≠ .unlocked → (x.tick.epoch = mkEpoch w ∨ x.now = mkCount w) →
            let off : Int := a - (((x.port p.val).delay.toNat : Nat) : Int)
            ∃ t, exec (.tickMarker d p w a) s = .next t ∧ (t.die d).tick.hop = mkHop w + 1 ∧
              (t.die d).tick.epoch = mkEpoch w ∧ (t.die d).tick.allowance = mkAllow w ∧ (t.die d).tick.offset = off ∧
              (t.die d).tick.parent = some p ∧ (t.die d).tick.quiet = 0 ∧
              (t.die d).tick.within = (if inBound off then x.tick.within + 1 else 0) ∧
              (t.die d).tick.state =
                (if x.tick.state = .holdover ∧ x.tick.accepted = false ∧ inBound off = true then .locked else x.tick.state) ∧
              (x.tick.state ≠ .tickFault → (t.die d).tick.nextParent = (t.die d).choice) ∧
              (t.die d).now = x.now ∧ ((t.die d).port p.val).missing = 0 ∧ (t.die d).tab = x.tab ∧ others t)))) ∧
    (∀ p : PortId, (x.port p.val).marker.isSome = true →
      let y := if (x.port p.val).marks then x.count (cPort 4 0 p.val) else x
      let t := s.fresh.setDie d (y.missMarker p.val).choose
      exec (.markerMissing d p) s = .next t ∧ ((t.die d).port p.val).missing = (x.port p.val).missing + 1 ∧
        (x.tick.parent = some p → 1 ≤ (x.port p.val).missing → dropped t)) ∧
    (∀ k, x.tick.drop = some k → within x.now k.1 16 = false →
      exec (.reparentWaitEnd d) s = .next (s.fresh.setDie d (x.modTick fun t => { t with drop := none }).choose)) ∧
    ((x.tick.state = .unlocked ∨ x.tick.state = .holdover) → x.tick.parent.isSome = true → 16 ≤ x.tick.within →
      exec (.tickLock d) s = .next (s.fresh.setDie d { x with tick := { x.tick with
        state := .locked, everLocked := true, hold := false, holdTicks := 0, faultCause := 0 } })) ∧
    (x.tick.state = .holdover → 262144 ≤ x.tick.holdTicks.toNat →
      ∃ t, exec (.holdoverLimit d) s = .next t ∧ (t.die d).tick.state = .tickFault ∧ (t.die d).tick.faultCause = 1 ∧
        (t.die d).tick.hold = true ∧ (t.die d).tick.parent = none ∧ (t.die d).tab = x.tab ∧ others t)

/-- A node never chooses a tick parent whose HOP_COUNT is 15. For every state, die, port and command among TICK_MARKER,
MARKER_MISSING and REPARENT_WAIT_END (the commands at which a node chooses its parent): when the command leaves the die with a
new choice of parent, the last valid marker of the port chosen does not have HOP_COUNT 15. -/
def Obligations.NoParentFifteenHopsAway : Prop :=
  ∀ (s t : State) (i : Instr) (d e : DieId) (p : PortId),
    ((∃ q w off, i = .tickMarker e q w off) ∨ (∃ q, i = .markerMissing e q) ∨ i = .reparentWaitEnd e) →
    exec i s = .next t → (t.die d).tick.nextParent = some p → (s.die d).tick.nextParent ≠ some p →
      ∃ m, ((t.die d).port p.val).marker = some m ∧ m.hop ≠ 15

/-- A quiet SPINE tray claims, better claims are forwarded and beat its own, and an unbeaten claim takes office after 8 ticks.
With a powered die that hears no master for 16 ticks, a SPINE tray of priority not 0 with no claim of its own sends its claim
for the next epoch on every trained link of its first powered die, and withdraws it where that die has forwarded a claim of that
epoch that its own does not beat. A sound claim on a trained link, better than the best one that the die has forwarded for its
epoch, is kept and forwarded on all other trained links; another is not; a claim better than the tray's own that reaches that
first die makes the tray withdraw. At least 8 ticks after its claim the die becomes master of the claimed epoch, LOCKED with 0
hops, and raises tick.master_change; a die that never locked takes the always-on count and the tray's period. -/
def Obligations.TheMasterIsElected : Prop :=
  ∀ s : State,
    (∀ d : DieId, s.clockDie = some d →
      let x := s.die d
      let e := s.elect.nextEpoch
      let w := s.ownClaim e
      let words : List Out := x.trained.map fun p => .word d p w
      (s.isSpine = true → s.elect.priority ≠ 0 → x.tick.master = false → 16 ≤ x.tick.quiet → s.elect.claim = none →
        s.elect.withdrawn ≠ some e →
        (x.newsClaim w = true → exec .tickClaimSend s = .next (({ s with
          out := words, elect := { s.elect with claim := some (e, x.now) } } : State).setDie d
            { x with bestClaim := Map.put x.bestClaim e.toNat w })) ∧
        (x.newsClaim w = false → exec .tickClaimSend s = .next { s with
          out := words, elect := { s.elect with withdrawn := some e } })) ∧
      ∀ (c : Byte) (k : Tick), s.elect.claim = some (c, k) → within x.now k 8 = false →
        ∃ t u : State, exec .masterTakeOffice s = .next t ∧ t = u.raiseDie 0x0283 d 0xFF 0xFF 0xFF 0 [c, 0] ∧ u.out = [] ∧
          (t.die d).tick.master = true ∧ (t.die d).tick.epoch = c ∧ (t.die d).tick.hop = 0 ∧ (t.die d).tick.state = .locked ∧
          (t.die d).tick.parent = none ∧ t.elect = { s.elect.hear c with claim := none } ∧
          (t.die d).now = (if x.tick.everLocked then x.now else s.boot.now) ∧
          (t.die d).tick.period = (if x.tick.everLocked then x.tick.period else s.elect.period) ∧
          ∀ e, e ≠ d → t.die e = s.die e) ∧
    ∀ (d : DieId) (p : PortId) (w : CtlWord), (s.die d).on = true → ((s.die d).port p.val).marks = true → mcrcOk w = true →
      cwType w = 0xA2 →
      let x := s.die d
      let v := claimClean w
      let elect : Elect := match s.elect.claim with
        | some (c, _) =>
          if s.clockDie == some d && betterClaim v (s.ownClaim c) then { s.elect with claim := none, withdrawn := some c } else s.elect
        | none => s.elect
      (x.newsClaim v = true → exec (.tickClaim d p w) s = .next (({ s with
        out := (x.trained.filter (· != p.val)).map fun q => Out.word d q v, elect := elect } : State).setDie d
          { x with bestClaim := Map.put x.bestClaim (clEpoch v).toNat v })) ∧
      (x.newsClaim v = false → exec (.tickClaim d p w) s = .next { s.fresh with elect := elect })

/-- FLOW, ACK and NAK words, data blocks, bad codewords, timeouts and STOMP keep permission and retry as stated. On a powered
die: of the four kinds of word on a linked port, one with a wrong MCRC or CW_TYPE is only counted. A sound FLOW word sets what its
four entries say, in order: an entry of a partition sets that partition's permission and WANT bits and no others, a pool entry the
pool's unless the far end is an endpoint. A sound ACK that names 1 to all of the retry buffer's blocks releases exactly those and
the packets that end before it, and blocks that wait go out; another releases none. A NAK below the 16th in a row for its block
resends from it when the block is held; the 16th fails the link. STOMP ends the packet in progress. A data block in sequence is
accepted, its bytes up to its fill words join the stream, and the 64th since the last ACK is acknowledged; one out of sequence is
not, and a block that is no data block changes nothing. A codeword that does not decode is counted, ends a packet that went
cut-through, and, on a port that carries packets, is answered by a NAK unless one for the same block left within 1 us; the 16th
such NAK fails the link. With a block unacknowledged for 4 us, a timeout below the fourth resends from the oldest block, the fourth
fails the link. None is counted in a switch. -/
def Obligations.RetryAndFlowWordsComplete : Prop :=
  ∀ (s : State) (d : DieId) (p : PortId), (s.die d).on = true →
    let x := s.die d
    let q := x.port p.val
    let set (g : Port → Port) : State := s.fresh.setDie d (x.modPort p.val g)
    (∀ w : CtlWord, q.linked = true →
      (∀ e ∈ [(Instr.flowWord d p w, 0xA3), (.ack d p w, 0xA5), (.nak d p w, 0xA6), (.stomp (d, p) w, 0xA7)],
        (mcrcOk w = false ∨ cwType w ≠ e.2) → exec e.1 s = .next (s.fresh.setDie d (x.count (cPort 2 0 p.val)))) ∧
      (mcrcOk w = true →
        (cwType w = 0xA3 → exec (.flowWord d p w) s =
          .next (set fun q => ((((q.takeFlow (flEntry w 0)).takeFlow (flEntry w 1)).takeFlow (flEntry w 2)).takeFlow (flEntry w 3)))) ∧
        (cwType w = 0xA5 → exec (.ack d p w) s = .next ((set fun q => q.release x.now (cwSeq w)).pump d p.val)) ∧
        (cwType w = 0xA6 →
          let n := if q.inSwitch then 0 else if q.nakCount ≠ 0 ∧ q.nakSeq = cwSeq w then q.nakCount + 1 else 1
          let t := set fun q => { q with nakSeq := cwSeq w, nakCount := n }
          (n < 16 → exec (.nak d p w) s = .next (t.replay d p.val (cwSeq w))) ∧
          (16 ≤ n → exec (.nak d p w) s = .next (t.failLink d p.val 3))) ∧
        (cwType w = 0xA7 → ∃ t, exec (.stomp (d, p) w) s = .next t ∧ ((t.die d).port p.val).rxStream = [] ∧
          ((t.die d).port p.val).through = none ∧ (∀ e, e ≠ d → t.die e = s.die e) ∧
          (q.through = none → t = set fun q => { q with rxStream := [], through := none })))) ∧
    (∀ (q : Port) (e : BitVec 21),
      (bit e 4 = false → ∀ k < 128,
        bit (q.takeFlow e).txXon k = (if k / 8 = (fld e 0 4).toNat then !bit e (5 + k % 8) else bit q.txXon k) ∧
        bit (q.takeFlow e).farWant k = if k / 8 = (fld e 0 4).toNat then bit e (13 + k % 8) else bit q.farWant k) ∧
      (bit e 4 = true →
        q.takeFlow e = if q.farEp then q else { q with txPool := !bit e 5, farWantPool := bit e 13 })) ∧
    (∀ (q : Port) (now : Tick) (seq : BitVec 16),
      let n := (seq - q.txAck).toNat
      (1 ≤ n → n ≤ q.retry.length →
        (q.release now seq).txAck = seq ∧ (q.release now seq).txNext = q.txNext ∧ (q.release now seq).timeouts = 0 ∧
          (q.release now seq).retry = q.retry.drop n ∧
          ∀ t, t ∈ (q.release now seq).txPkts ↔ t ∈ q.txPkts ∧ n ≤ (t.last - q.txAck).toNat) ∧
      ((n = 0 ∨ q.retry.length < n) → q.release now seq = q)) ∧
    (∀ (t : State) (seq : BitVec 16),
      let r := (t.die d).port p.val
      let n := (seq - r.txAck).toNat
      (n < r.retry.length → t.replay d p.val seq =
        (t.setDie d (((t.die d).count (cPort 2 3 p.val)).modPort p.val fun r => { r with resend := r.retry.length - n })).pump d p.val) ∧
      (r.retry.length ≤ n → t.replay d p.val seq = t)) ∧
    (∀ (seq : BitVec 16) (l : Line) (pos : Fin 20) (after : Option CtlWord) (bs : List Block), q.carries = true →
      q.receive p.val l = some bs →
      (∀ b, bs[pos.val]? = some (.data b) →
        let got (t : State) : Prop := ∀ e, e ≠ d → t.die e = s.die e
        (seq = q.rxNext → ∃ t, exec (.dataBlock (d, p) seq l pos after) s = .next t ∧ got t ∧
          ((t.die d).port p.val).rxNext = q.rxNext + 1 ∧
          ((t.die d).port p.val).rxUnacked = (if q.rxUnacked = 63 then 0 else q.rxUnacked + 1) ∧
          ((t.die d).port p.val).rxStream =
            leftover 2 (q.rxStream ++ (le 32 b.toNat).take (32 - 4 * fillOf (nextWord bs pos.val after))) ∧
          (q.rxUnacked = 63 → t.out = [.word d p.val (ackWord (q.rxNext + 1))]) ∧ (q.rxUnacked ≠ 63 → t.out = [])) ∧
        (seq ≠ q.rxNext → ∃ t, exec (.dataBlock (d, p) seq l pos after) s = .next t ∧ got t ∧ (t.die d).ports = x.ports ∧
          t.out = [])) ∧
      (∀ u v, bs[pos.val]? = some (.control u v) → exec (.dataBlock (d, p) seq l pos after) s = .next s.fresh)) ∧
    (∀ l : Line, q.linked = true → q.receive p.val l = none →
      let u := s.fresh.setDie d (x.count (cPort 2 5 p.val))
      let t := if q.through.isSome then (u.setDie d ((u.die d).count (cPort 3 5 p.val))).stompOut d p.val else u
      let same := q.nakSent.any fun b => b.1 == q.rxNext
      let again := q.nakSent.any fun b => b.1 == q.rxNext && within x.now b.2 (ceilDiv 1000 x.ns)
      let n := if q.inSwitch then 0 else if same then q.nakOut + 1 else 1
      let r := (t.modDie d fun x => x.modPort p.val fun r => { r with nakSent := some (q.rxNext, x.now), nakOut := n }).emit
        (.word d p.val (nakWord q.rxNext))
      ((q.carries = false ∨ again = true) → exec (.codewordUncorrectable (d, p) l) s = .next t) ∧
      (q.carries = true → again = false → n < 16 → exec (.codewordUncorrectable (d, p) l) s = .next r) ∧
      (q.carries = true → again = false → 16 ≤ n → exec (.codewordUncorrectable (d, p) l) s = .next (r.failLink d p.val 3))) ∧
    (q.carries = true → q.retry ≠ [] → within x.now q.ackTick (ceilDiv 4000 x.ns) = false →
      let n := if q.inSwitch then 0 else q.timeouts + 1
      let t := set fun q => { q with timeouts := n, ackTick := x.now }
      (n < 4 → exec (.retryTimeout d p) s = .next (t.replay d p.val q.txAck)) ∧
      (4 ≤ n → exec (.retryTimeout d p) s = .next (t.failLink d p.val 4)))

/-- Delay probes, the identity exchange and training set the port as chapter 04 states. On a powered die: a periodic probe that is
due, while the link trains and every 65,536 ticks after, measures the margins (a free value) and leaves; one that is not due does
not. A sound probe is answered with a reply that echoes its time, margins being measured; a sound reply gives the one-way delay and
the far margins; both may bring the switch that the locked lanes call for. A port in DETECT whose lane group is powered and whose
data path is lit enters TRAIN, takes the lane map of its caddy and announces itself. In TRAIN the far end's identity is kept, a
first mismatch is reported, and lanes that lock are announced. With its delay measured and a lane locked at both ends an external
port is at x1 on the lowest such lane, in ACTIVE_PW, and trains on; a bridge port with all four is at x4 in ACTIVE; either is HELD
with the cause when the identity check failed, takes the lane map that training found, and counts a map that differs from the
stored one. Later locks are recorded and announced where the port trains or widens. A sound WIDTH_REQ is recorded, with the switch
of this end where it has one, and its lost lanes with it; one without lanes, or that leaves a running bridge port below x4, fails
the link, one at 106 Gb/s with other than one lane is counted as bad. The ACTIVE bound reports a width below x4 and settles it:
over the locked lanes, where there are any, the others being lost; after the switch, where one is under way. -/
def Obligations.ProbesAndTrainingComplete : Prop :=
  ∀ (s : State) (d : DieId) (p : PortId), (s.die d).on = true →
    let x := s.die d
    let q := x.port p.val
    let set (g : Port → Port) : State := s.fresh.setDie d (x.modPort p.val g)
    let m := Config.margin s.free
    let drew (t : State) : State := { t with free := s.free + 1 }
    (∀ time : BitVec 48,
      (x.probeDue p.val = true → exec (.delayProbePeriodic d p time) s =
        .next ((drew (set fun q => { q with marginNear := m, probed := some x.now })).emit (.word d p.val (probeWord false time 0 m)))) ∧
      (x.probeDue p.val = false → exec (.delayProbePeriodic d p time) s = .next s.fresh)) ∧
    (∀ w : CtlWord, q.linked = true → mcrcOk w = true → cwType w = 0xAB →
      (∀ turn : BitVec 32, exec (.delayProbe d p w turn) s =
        .next (((drew (set fun q => { q with marginNear := m, marginFar := fld w 96 16 })).rewiden d p.val).emit
          (.word d p.val (probeWord true (fld w 16 48) turn m)))) ∧
      ∀ a : BitVec 48, exec (.delayProbeReply d p w a) s =
        .next ((set fun q => { q with delay := BitVec.ofNat 16 (min (probeDelay w a) 65535), marginFar := fld w 96 16,
                                      measured := true }).rewiden d p.val)) ∧
    (x.laneGroups.getLsbD (p.val / 4) = true → p.val < 70 → q.state = .detect →
      (s.lit d p.val = true →
        let t := set fun q => { q with state := .train, locked := 0, farLocked := 0, badId := 0, laneMap := s.storedMap d p.val,
                                       measured := false, probed := none }
        exec (.farSignalDetect d p) s = .next (t.emit (.word d p.val (t.trainIdOf d p.val)))) ∧
      (s.lit d p.val = false → exec (.farSignalDetect d p) s = .next s.fresh)) ∧
    (∀ w : CtlWord, mcrcOk w = true → cwType w = 0xA8 →
      (q.state = .train →
        let c := s.cablingCause d p.val w
        let t := set fun q =>
          { q with farSerial := fld w 38 48, farId := s.farIdOf d p.val w, farEp := bit w 8, farLocked := fld w 86 4, badId := c }
        (c = 0 ∨ c = q.badId → exec (.trainId d p w) s = .next (t.emit (.word d p.val (t.trainIdOf d p.val)))) ∧
        (c ≠ 0 → c ≠ q.badId →
          let u := t.raisePort 0x0385 d p.val (c.setWidth 8) (le 6 (fld w 38 48).toNat ++ le 2 (s.farIdOf d p.val w).toNat)
          exec (.trainId d p w) s = .next (u.emit (.word d p.val (t.trainIdOf d p.val))))) ∧
      (q.marks = true →
        (bit w 90 = true → exec (.trainId d p w) s = .next ((set fun q => { q with farLocked := fld w 86 4 }).rewiden d p.val)) ∧
        (bit w 90 = false → exec (.trainId d p w) s = .next s.fresh))) ∧
    (∀ found : BitVec 5,
      let both := q.locked &&& q.farLocked
      let bridge := decide (64 ≤ p.val)
      q.state = .train → q.measured = true → s.lit d p.val = true → (if bridge then both = 15 else both ≠ 0) →
      ∃ t, exec (.trainComplete (d, p) found) s = .next t ∧
        let r := (t.die d).port p.val
        r.lanes = (if bridge then 15 else laneMask ((bitsOf both).take 1)) ∧ r.fullRate = bridge ∧
        r.state = (if q.badId ≠ 0 then .held else if bridge then .active else .activePw) ∧ r.cause = q.badId ∧
        r.training = !bridge ∧ r.laneMap = found ∧ r.txNext = 0 ∧ r.rxNext = 0 ∧ r.retry = [] ∧ r.txXon = 0 ∧
        (t.die d).ctr = (if found = q.laneMap then x.ctr else (x.count (cPort 2 6 p.val)).ctr) ∧ t.fuse = s.fuse ∧ t.tok = s.tok) ∧
    (∀ lane : Fin 4,
      (q.state = .train →
        let t := set fun q => { q with locked := setBit q.locked lane.val true }
        exec (.laneLock d p lane) s = .next (t.emit (.word d p.val (t.trainIdOf d p.val)))) ∧
      ((q.marks = true ∨ q.state = .switching) → q.state ≠ .sweep → bit q.lanes lane.val = false →
        (q.training = true ∨ q.widen = true) →
        let t := set fun q => { q with locked := setBit q.locked lane.val true,
                                       lost := if q.widen then setBit q.lost lane.val false else q.lost }
        (q.marks = true → exec (.laneLock d p lane) s = .next ((t.emit (.word d p.val (t.trainIdOf d p.val))).rewiden d p.val)) ∧
        (q.state = .switching → exec (.laneLock d p lane) s = .next t))) ∧
    (∀ w : CtlWord, q.linked = true → mcrcOk w = true → cwType w = 0xA9 →
      let one := bit w 12 && popCount (fld w 8 4) != 1
      let r : Port := { q with lost := q.lost ||| fld w 16 4 }
      let c := r.agree x.now w
      let bad := c.lanes = 0 ∨ (64 ≤ p.val ∧ q.carries = true ∧ c.lanes ≠ 15)
      (one = true → exec (.widthReq d p w) s = .next (s.fresh.setDie d (x.count (cPort 2 0 p.val)))) ∧
      (one = false → q.state = .train → exec (.widthReq d p w) s = .next s.fresh) ∧
      (one = false → q.marks = true → bad → exec (.widthReq d p w) s = .next ((set fun _ => r).failLink d p.val 2)) ∧
      (one = false → q.marks = true → ¬ bad → exec (.widthReq d p w) s = .next (set fun _ => { r with sw := some c })) ∧
      (q.sw = none → c = { lanes := fld w 8 4, slow := bit w 12, reason := fld w 13 3, tick := fld w 20 48,
                           byLoss := fld w 13 3 == 0, start := x.now })) ∧
    (q.training = true → q.boundOver = false → (q.marks = true ∨ q.state = .switching) →
      let t := set fun r => { r with boundOver := true, settle := q.sw.isSome }
      let l := q.chooseLanes fun i => bit q.both i
      let wider := q.width < popCount l ∨ q.fullRate = false
      (q.sw.isSome = true → exec (.trainBoundExpiry d p) s = .next (t.raiseDegrade d p.val)) ∧
      (q.sw = none → ∃ u : State, exec (.trainBoundExpiry d p) s = .next (u.raiseDegrade d p.val) ∧
        let r := (u.die d).port p.val
        r.boundOver = true ∧ r.lanes = q.lanes ∧ r.fullRate = q.fullRate ∧
        (l = 0 → r.training = true ∧ r.lost = q.lost ∧ r.sw = none) ∧
        (l ≠ 0 → r.training = false ∧ r.lost = q.lost ||| ~~~(if wider then l else q.lanes) ∧
          (wider → ∃ c, r.sw = some c ∧ c.lanes = l ∧ c.slow = false) ∧ (¬ wider → r.sw = none))))

/-- A lost lane requests a switch or fails the link, a switch runs at its tick, and a failed port goes to DETECT or DISABLED. On
a powered die: losing a lane in use, or one that a switch under way will use, outside a sweep, declares it lost and requests the
lanes of R146; with none left, or at a bridge port, the link fails. In a sweep the carrier moves to the lowest lane neither under
sweep nor lost, and the link fails when there is none. A lane not in use is only locked no longer. At its tick a switch takes a
port that carries packets to SWITCH, and its end takes the new lanes and rate, restores the state and asks for the next expected
block. 20 us without completion, from the loss of lock or else from SWITCH_TICK, fails the link, as does loss of every lane or
codeword outside a switch; inside one the latter does nothing. A failed port goes to DETECT, or to DISABLED with cause 4 at the
fourth counted failure within 65,536 ticks, with its retry and permission state lost. A port that a command holds or disables and
that has emptied, or had its time, is HELD or DISABLED with cause 3 and holds no packet queued for it; until then it stays. A
bridge port so taken out of service may report the pair down. -/
def Obligations.SwitchesAndLossComplete : Prop :=
  ∀ (s : State) (d : DieId) (p : PortId), (s.die d).on = true →
    let x := s.die d
    let q := x.port p.val
    let set (g : Port → Port) : State := s.fresh.setDie d (x.modPort p.val g)
    let failed (t : State) (row : Nat) : Prop :=
      let r := (t.die d).port p.val
      r.state = (failTarget x.now q.fails row none).1 ∧ r.cause = (failTarget x.now q.fails row none).2 ∧ r.txPkts = [] ∧
        r.retry = [] ∧ r.txXon = 0 ∧ r.rxXon = 0 ∧ r.sw = none ∧ r.fails = recentFails x.now q.fails ++ [x.now] ∧
        t.tok = s.tok ∧ t.fuse = s.fuse
    (∀ lane : Fin 4, (q.marks = true ∨ q.state = .switching) →
      let i := lane.val
      let used := bit q.lanes i || q.sw.any fun w => bit w.lanes i
      let slow := match q.sw with | some w => w.slow | none => !q.fullRate
      let y : Port := { q with lost := setBit q.lost i true, locked := setBit q.locked i false }
      let m := y.afterLoss (s.aim == 1 && decide (p.val < 64))
      (used = false →
        let t := set fun q => { q with locked := setBit q.locked i false }
        exec (.laneLoss d p lane) s =
          .next (if q.marks && (q.training || q.widen) then t.emit (.word d p.val (t.trainIdOf d p.val)) else t)) ∧
      (used = true → q.state ≠ .sweep →
        (m ≠ 0 → p.val < 64 →
          let w : Switch := { lanes := m, slow := slow, reason := 0, tick := switchTickAt x.now, byLoss := true, start := x.now }
          exec (.laneLoss d p lane) s =
            .next ((set fun _ => { y with sw := some w }).emit (.word d p.val (widthWord m slow 0 y.lost w.tick)))) ∧
        (m = 0 ∨ 64 ≤ p.val → ∃ t, exec (.laneLoss d p lane) s = .next t ∧ failed t 2)) ∧
      (used = true → q.state = .sweep →
        let needed := match q.sw with | some w => bit w.lanes i | none => bit q.lanes i
        let free := (List.range 4).find? fun j => !bit y.lost j && y.sweptLane != some j
        (needed = false → exec (.laneLoss d p lane) s = .next (set fun _ => y)) ∧
        (∀ j, needed = true → free = some j →
          exec (.laneLoss d p lane) s = .next ((set fun _ => y).requestSwitch d p.val (laneMask [j]) false 0 true)) ∧
        (needed = true → free = none → ∃ t, exec (.laneLoss d p lane) s = .next t ∧ failed t 2))) ∧
    (∀ w, q.sw = some w → reached x.now w.tick = true →
      (q.carries = true → exec (.switchStart d p) s =
        .next (s.fresh.setDie d (x.modPort p.val fun q => { q with state := .switching }))) ∧
      (q.carries = false → ∃ t, exec (.switchComplete d p) s = .next t ∧ ((t.die d).port p.val).lanes = w.lanes ∧
        ((t.die d).port p.val).fullRate = !w.slow ∧
        (q.training = false → q.widen = false → ((t.die d).port p.val).sw = none) ∧
        ((t.die d).port p.val).state = (if q.state = .switching then (if w.slow then .activePw else .active) else q.state) ∧
        (q.state = .switching → Out.word d p.val (nakWord q.rxNext) ∈ t.out) ∧ ∀ e, e ≠ d → t.die e = s.die e)) ∧
    (∀ w, q.sw = some w → q.up = true →
      ((w.byLoss = true ∧ within x.now w.start (20000 / x.ns) = false) ∨
        (w.byLoss = false ∧ reached x.now w.tick = true ∧ within x.now w.tick (20000 / x.ns) = false)) →
      ∃ t, exec (.switchTimeout d p) s = .next t ∧ failed t 2) ∧
    (q.up = true → (q.inSwitch = false → ∃ t, exec (.linkFail d p) s = .next t ∧ failed t 1) ∧
      (q.inSwitch = true → exec (.linkFail d p) s = .next s.fresh)) ∧
    ∀ (dest : LinkState) (up : Bool), q.leaveTo = some dest →
      let mine (h : Held) : Bool := h.outPort == p.val && (h.bin == .queue || h.bin == .circuit)
      ((up = true ∨ x.emptied p.val = true) →
        ∃ t : State, exec (.linkHoldDone d p up) s = .next (if q.inService then t.bridgeDown d p.val else t) ∧
          (t.die d).held = x.held.filter (fun h => !mine h) ∧ ((t.die d).port p.val).cause = 3 ∧
          ((t.die d).port p.val).leaveTo = none ∧
          ((t.die d).port p.val).state = (if dest = .disabled then .disabled else .held) ∧ (t.die d).tab = x.tab ∧
          t.evs = s.evs ∧ ∀ e, e ≠ d → t.die e = s.die e) ∧
      (up = false → x.emptied p.val = false → exec (.linkHoldDone d p up) s = .next s.fresh)

/-- Both ends of a margin sweep follow the SWEEP words, the dwell and the 64-tick limit. On a powered die, with sound words:
START puts a port with no sweep of its own into SWEEP as far end, is ignored by an end whose START wins, and otherwise ends its
own sweep with result 2, answers BUSY and takes the far part. KEEPALIVE, POINT and END are accepted by the far end that holds the
sweep, which counts its limit anew (END leaves the port HELD), and without the sweep are answered with ABORTED; an end that runs a
sweep ignores KEEPALIVE and END. ABORTED, and BUSY unless this end's START wins, end the near end's sweep of that SWEEP_ID, with
the port HELD and result 2; of another SWEEP_ID they change nothing. A dwell that has ended at the receiver under sweep, or the far
end's count for the point that the near end is at, stores the count and goes to the next point, to the next lane, or ends the
sweep, result 0, with the switch back to x4; before the dwell has ended nothing happens. The limit of 64 ticks returns the far
end to DETECT, and not before. -/
def Obligations.MarginSweepsComplete : Prop :=
  ∀ (s : State) (d : DieId) (p : PortId), (s.die d).on = true →
    let x := s.die d
    let q := x.port p.val
    let set (g : Port → Port) : State := s.fresh.setDie d (x.modPort p.val g)
    (∀ w : CtlWord, q.linked = true → mcrcOk w = true → cwType w = 0xAA →
      let far : Option SweepFar := some { word := w, last := x.now, since := x.now }
      let abort : Host.Outcome State Fault Refusal := .next (s.fresh.emit (.word d p.val (swReply w 6 0)))
      let kept : Host.Outcome State Fault Refusal := .next (set fun q => { q with far := q.far.map fun f =>
        { word := w, last := x.now, since := if swPoint f.word = swPoint w ∧ swLane f.word = swLane w then f.since else x.now } })
      (q.near = none → exec (.sweepStart d p w) s = .next (set fun q => { q with state := .sweep, far := far })) ∧
      (q.near ≠ none → s.startWins d p.val = true → exec (.sweepStart d p w) s = .next s.fresh) ∧
      (∀ n, q.near = some n → s.startWins d p.val = false →
        ∃ t, exec (.sweepStart d p w) s = .next t ∧
          t = (((s.fresh.endSweep d p.val 2).emit (.word d p.val (swReply w 7 0))).modDie d fun x => x.modPort p.val fun q =>
            { q with state := .sweep, far := far }) ∧
          ((t.die d).port p.val).near = none) ∧
      (q.near = none →
        (x.farHolds p.val w = true → exec (.sweepKeepalive d p w) s = kept ∧ exec (.sweepPoint d p w) s = kept ∧
          exec (.sweepEnd d p w) s =
            .next (set fun q => { q with far := none, state := .held, cause := if q.cause = 0 then 3 else q.cause })) ∧
        (x.farHolds p.val w = false → exec (.sweepKeepalive d p w) s = abort ∧ exec (.sweepPoint d p w) s = abort ∧
          exec (.sweepEnd d p w) s = abort)) ∧
      ∀ n, q.near = some n →
        exec (.sweepKeepalive d p w) s = .next s.fresh ∧ exec (.sweepEnd d p w) s = .next s.fresh ∧
        (n.req.sweepId = swId w →
          exec (.sweepAborted d p w) s = .next (s.fresh.endSweep d p.val 2) ∧
          exec (.sweepBusy d p w) s = .next (if s.startWins d p.val then s.fresh else s.fresh.endSweep d p.val 2) ∧
          (n.req.side = 1 → n.lane = swLane w → n.point = swPoint w →
            exec (.sweepPoint d p w) s = .next (s.fresh.pointDone d p.val n (swErrors w)))) ∧
        (n.req.sweepId ≠ swId w →
          exec (.sweepAborted d p w) s = .next s.fresh ∧ exec (.sweepBusy d p w) s = .next s.fresh ∧
          exec (.sweepPoint d p w) s = .next s.fresh)) ∧
    (∀ f : SweepFar, q.far = some f →
      (within x.now f.last 64 = false → exec (.sweepFarTimeout d p) s =
        .next (set fun q => if q.state = .sweep then { (q.resetLink .detect 0) with far := none } else { q with far := none })) ∧
      (within x.now f.last 64 = true → exec (.sweepFarTimeout d p) s = .next s.fresh) ∧
      (q.near = none → q.state = .sweep → swFarRx f.word = true → ∀ n : BitVec 16,
        let late := reached x.now (f.since + 1 + (fld f.word 36 16).setWidth 48)
        exec (.sweepPointDone d p n) s =
          .next (if late then s.fresh.emit (.word d p.val (swReply f.word 3 n)) else s.fresh))) ∧
    ∀ n : SweepNear, q.near = some n →
      (∀ r, ((s.fresh.endSweep d p.val r).die d).port p.val = { q with near := none, state := .held } ∧
        (s.fresh.endSweep d p.val r).sweeps =
          s.sweeps.map fun e => if e.running && e.req == n.req then { e with running := false, result := r } else e) ∧
      (q.state = .sweep → exec (.sweepKeepaliveSend d p) s =
        .next ((set fun q => { q with near := some { n with lastSent := x.now } }).emit
          (.word d p.val (sweepWordOf n.req 2 n.lane.toNat n.point)))) ∧
      ∀ c : BitVec 16,
        (q.state = .sweep → n.req.side = 0 → exec (.sweepPointDone d p c) s =
          .next (if reached x.now (n.since + 1 + n.req.dwell.setWidth 48) then s.fresh.pointDone d p.val n c else s.fresh)) ∧
        let mask : BitVec 4 := n.req.lanes.setWidth 4
        let stored : State := { s.fresh with sweeps := s.sweeps.map fun r => if r.running && r.req == n.req then
          { r with counts := Map.put r.counts (4096 * n.lane.toNat + n.point) c, done := r.done + 1 } else r }
        let go (lane point : Nat) : State := (stored.setDie d (x.modPort p.val fun q =>
          { q with near := some { n with lane := BitVec.ofNat 2 lane, point := point, lastSent := x.now, since := x.now } })).emit
          (.word d p.val (sweepWordOf n.req 3 lane point))
        let last := (sweepPoints n.req).getD 0 ≤ n.point + 1
        (¬ last → s.fresh.pointDone d p.val n c = go n.lane.toNat (n.point + 1)) ∧
        (∀ l, last → laneAfter (sweepLanes mask) n.lane.toNat = some l →
          s.fresh.pointDone d p.val n c = if sweepCarrier mask l = sweepCarrier mask n.lane.toNat then go l 0
            else (go l 0).requestSwitch d p.val (laneMask [sweepCarrier mask l]) false 4 false) ∧
        (last → laneAfter (sweepLanes mask) n.lane.toNat = none →
          s.fresh.pointDone d p.val n c =
            ((stored.emit (.word d p.val (sweepWordOf n.req 5 n.lane.toNat n.point))).endSweep d p.val 0).requestSwitch d p.val 15
              false 4 false)

/-- A caddy is taken, refused, left, withdrawn and warmed as chapters 04, 14 and 17 state. An empty bay that senses a caddy
takes domain A; with domain A powered and the lever closed, the frames that read its EEPROM take their turn on the FPSM, and what
they read makes it ACTIVE or REFUSED with the cause, with its events. Domain B reported good is kept for a caddy that has been taken
while it is powered. Opening the lever marks all 32 ports of the bay as leaving, with an event. While a caddy leaves, each of its
ports that holds nothing to send fails, after 10 ms every one; once none is up the caddy is no longer taken, and it may go once
domain B is off. A caddy withdrawn without that leaves every port down, with an event; withdrawn at any time it leaves the bay
empty and the marks lifted. Closing the lever begins insertion again at the EEPROM and lifts the marks. A temperature sample takes
its turn on the FPSM; a valid one is kept, and counted where the EEPROM has been read and is sound; reaching TEMP_CRIT takes every
port of the bay down, and that, as its end, plans the power of the bay. -/
def Obligations.CaddiesComplete : Prop :=
  ∀ (s : State) (c : BayId),
    let b := s.bay c
    let d := bayDie c
    let x := s.die d
    let down (t : State) : Prop := ∀ p ∈ bayPorts c, ((t.die d).port p).up = false
    let marked (t : State) (m : Bool) : Prop :=
      (∀ p, (t.die d).port p = if p ∈ bayPorts c then { x.port p with leaving := m } else x.port p) ∧
        ∀ e, e ≠ d → t.die e = s.die e
    (b.state = .empty →
      exec (.caddyPresence c) s = .next ((s.fresh.modBay c fun _ => { ({} : Bay) with state := .domainA }).planPower)) ∧
    (b.state ≠ .empty → exec (.caddyPresence c) s = .next s.fresh) ∧
    (∀ e : List Byte, b.state = .domainA → b.lever = false → s.domainA c = true →
      let asked := (List.range 32).foldl (fun (t : State) i =>
        t.askCaddy { bay := c, addr := BitVec.ofNat 16 (64 * i), len := 64 }) s.fresh
      let n := s.refuses c e
      let t (st : CaddyState) : State :=
        asked.modBay c fun b => { b with state := st, cause := n, eeprom := e, taken := n = 0 }
      (n = 0 → exec (.caddyIdRead c e) s = .next ((t .active).raiseBay 0x0390 c 0 [e.getD 6 0]).planPower) ∧
      (n = 1 → exec (.caddyIdRead c e) s = .next ((t .refused).raiseBay 0x0391 c 1 []).planPower) ∧
      (2 ≤ n.toNat → exec (.caddyIdRead c e) s =
        .next (((t .refused).raiseBay 0x0390 c 0 [e.getD 6 0]).raiseBay 0x0391 c n []).planPower)) ∧
    (b.taken = true → s.pow.domains.getLsbD (113 + 2 * c.val) = true →
      exec (.caddyDomainBGood c) s = .next (s.fresh.modBay c fun b => { b with domB := true }).planPower) ∧
    ((b.taken = false ∨ s.pow.domains.getLsbD (113 + 2 * c.val) = false) → exec (.caddyDomainBGood c) s = .next s.fresh) ∧
    (b.state ≠ .empty → b.lever = false →
      ∃ t : State, exec (.caddyLeverOpen c) s = .next (t.raiseBay 0x0392 c 0 []) ∧ t.bay c = { b with state := .leaving, lever := true } ∧
        marked t true) ∧
    (∀ up : Bool, b.state = .leaving →
      let t := (bayPorts c).foldl (fun (t : State) p => if up || (t.die d).emptied p then t.failLink d p 5 else t) s.fresh
      let off := (t.modBay c fun b => { b with taken := false }).planPower
      ((∃ p ∈ bayPorts c, ((t.die d).port p).up = true) → exec (.caddyLeavingDone c up) s = .next t) ∧
      (down t → exec (.caddyLeavingDone c up) s =
        .next (if s.pow.domains.getLsbD (113 + 2 * c.val) then off else off.modBay c fun b => { b with state := .readyToRemove })) ∧
      (up = true → down t)) ∧
    (b.state ≠ .empty →
      let early := b.state != .readyToRemove
      let t := if early then (bayPorts c).foldl (fun (t : State) p => t.failLink d p 5) s.fresh else s.fresh
      ∃ u : State, exec (.caddyWithdrawn c) s = .next (if early then u.raiseBay 0x0393 c 0 [] else u) ∧
        u = ((t.modBay c fun _ => {}).markBay c false).planPower ∧ u.bay c = {} ∧ (early = true → down u) ∧
        (early = false → marked u false)) ∧
    (b.lever = true → b.state ≠ .empty →
      ∃ t, exec (.caddyLeverClose c) s = .next t ∧ marked t false ∧
        t.bay c = { b with state := .domainA, lever := false, cause := 0, warm := 0, hot := 0, cool := 0,
                           eeprom := if b.cause = 1 then [] else b.eeprom }) ∧
    ∀ (temp : BitVec 16) (st : Byte), b.state ≠ .empty → s.domainA c = true →
      let asked := s.fresh.askCaddy { bay := c, addr := 0x1000, len := 3 }
      (bit st 7 = true → exec (.caddyTempSample c temp st) s = .next asked) ∧
      (bit st 7 = false →
        ((b.eeprom = [] ∨ b.cause = 1) →
          exec (.caddyTempSample c temp st) s = .next (asked.modBay c fun b => { b with temp := temp })) ∧
        (b.eeprom ≠ [] → b.cause ≠ 1 →
          let warn : Int := 10 * (b.eeprom.getD 48 255).toNat
          let crit : Int := 10 * (b.eeprom.getD 49 255).toNat
          let cool := if temp.toInt ≤ warn - 50 then b.cool + 1 else 0
          let k : Bay := { b with temp := temp, cool := cool, warm := holdCond (decide (warn ≤ temp.toInt)) b.warm cool,
                                  hot := holdCond (decide (crit ≤ temp.toInt)) b.hot cool }
          let t := asked.modBay c fun _ => k
          let u := (bayPorts c).foldl (fun (t : State) p => t.failLink d p 1) t
          exec (.caddyTempSample c temp st) s =
            .next (if k.critical && !b.critical then u.planPower else if b.critical && !k.critical then t.planPower else t) ∧
          down u))

/-- A packet is dropped by the first check it fails, delivered to the FC4, held, or queued for a port of its route. For every packet
row, at any port: a port that takes no packets takes none. On one that does, a packet that fails a check of Table 03-5 is dropped
and counted by that check; one that passes is counted, with the header as the die stamps it. From port 71 it is counted against the
loop. A packet of a CLOSED partition, or of one FENCED for 64 ticks, is discarded; one without room is dropped with its event; one
of a DRAINED virtual channel is held; every other goes on from its segment, may go cut-through at once, and its arrival is noted for
flow control. A mailbox packet goes on to the FC4. A packet from a port that is not a down port, not of VC1, VC2 or VC5, is
discarded where its route entry is invalid or another partition's or has no port, and otherwise joins the queue of one of the ports
that the entry allows; one of VC5 is discarded without its circuit, its lease or the circuit's port, and otherwise joins that
circuit's queue (queues of down ports apart in both). A SPRAY packet from a down port takes the flow's next sequence; a request from
a down port is resolved by the directory and routed to the owner, or held as missed; a missed request becomes NOT_RESIDENT when VC7
has room. -/
def Obligations.PacketsAreCheckedAndForwarded : Prop :=
  ∀ (s : State) (d : DieId) (p : PortId) (w : BitVec 256) (bs : List Byte) (t : Nat),
    let x := s.die d
    let hd := Hdr.ofWord w
    let h := s.stamp d p.val hd
    let part := h.part.toNat
    let base := s.fresh.setDie d { x with clock := t }
    let passed := base.setDie d (({ x with clock := t } : Die).countRx p.val hd)
    let y := passed.die d
    let rows : List Instr :=
      [.packetIngress d p w ⟨bs, t⟩, .spray d p w ⟨bs, t⟩, .circuitData d p w ⟨bs, t⟩, .posReq d p w ⟨bs, t⟩, .posRsp d p w ⟨bs, t⟩,
       .echoNote d p w ⟨bs, t⟩, .contrib d p w ⟨bs, t⟩, .gatherIn d p w ⟨bs, t⟩, .blendPacket d p w ⟨bs, t⟩, .blendAbort d p w ⟨bs, t⟩,
       .mbxReq d p w ⟨bs, t⟩, .mbxRsp d p w ⟨bs, t⟩, .mbxEvt d p w ⟨bs, t⟩]
    let late : Bool := match Map.look x.fencedAt part with | some f => reached x.now (f + 64) | none => true
    let closed : Prop := h.mailbox = false ∧ (x.view.part part).state = .closed
    let fenced : Prop := h.mailbox = false ∧ (x.view.part part).state = .fenced ∧ late = true
    let counted (n : Nat) : State := passed.setDie d (y.discard h n)
    (∀ i, (i ∈ rows ∨ (p.val = 71 ∧ i = .diag d w ⟨bs, t⟩)) → i.wf = true →
      (s.takes d p.val = false → exec i s = .next base) ∧
      (∀ n, s.takes d p.val = true → s.ingressFault d p.val w = some n →
        let q : Die := { x with clock := t }
        exec i s = .next (s.fresh.setDie d (if n = 0 then q.count (cPort 3 0 p.val)
          else q.discard hd (cPort 3 n p.val) (n == 3 && (Map.look x.view.portPart p.val).isNone)))) ∧
      (s.takes d p.val = true → s.ingressFault d p.val w = none →
        (p.val = 71 → exec i s = .next (passed.setDie d (y.diagBack h bs))) ∧
        (p.val ≠ 71 → closed → exec i s = .next (counted (cPort 3 3 p.val))) ∧
        (p.val ≠ 71 → fenced → exec i s = .next (counted (cPart 13 0 part))) ∧
        (p.val ≠ 71 → ¬ closed → ¬ fenced →
          (passed.admits d p.val h = none → exec i s = .next (passed.overrunDrop d p.val h)) ∧
          ∀ g, passed.admits d p.val h = some g →
            let k : Held := { id := x.nextId, inPort := p.val, outPort := 0, hdr := h, data := bs, bin := .queue, seg := g.1,
                              cells := g.2, tick := x.now }
            let noted (v : State) : State := v.noteArrival d p.val (s.arrivalKey p.val h) h.bytes
            let holds := Map.lookD x.drained h.key false && !s.pooled d p.val h
            (holds = true → exec i s = .next (noted (passed.setDie d { (y.count (cPart 6 5 part)) with
              held := x.held ++ [{ k with bin := .drained }], nextId := x.nextId + 1 }))) ∧
            (holds = false → exec i s = .next (noted ((passed.goOn d k).cutThrough passed d p.val t x.nextId)))))) ∧
    (∀ l, x.loop = some l → h.type = 0x1F →
      let bad := if bs = (List.range h.len.toNat).map Config.diagByte then 0 else 1
      let m : DiagLoop := { l with received := l.received + 1, mismatched := l.mismatched + bad }
      y.diagBack h bs = { y with loop := some m }) ∧
    (∀ g : Nat × List (Nat × Nat),
      let k : Held := { id := x.nextId, inPort := p.val, outPort := 0, hdr := h, data := bs, bin := .queue, seg := g.1, cells := g.2,
                        tick := x.now }
      let v := passed.goOn d k
      let others : Prop := ∀ e, e ≠ d → v.die e = s.die e
      let queued (o : Nat) (b : Bin) : Held :=
        { k with outPort := o, bin := b, hdr := { h with mark := h.mark || x.marks o h } }
      (h.mailbox = true → v.out = [.mailbox d p.val h bs] ∧ (v.die d).held = x.held ∧ others) ∧
      (h.mailbox = false → s.isDown p.val = false →
        (h.vc ≠ 1 → h.vc ≠ 2 → h.vc ≠ 5 →
          let r := x.view.select part h.epoch h.dst.toNat x.now
          let e := r.1
          let z := if r.2 then y.count (cPart 6 4 part) else y
          let ports := s.eligible d e h.dst
          let usable : Prop :=
            rtKind e = 1 → rtPort e < 70 ∧ (s.isDown (rtPort e) = true → (Map.look x.view.portPart (rtPort e)).isSome = true)
          (rtKind e = 0 → v = passed.setDie d (z.discard h (cPart 6 0 part))) ∧
          (rtKind e ≠ 0 → rtPart e ≠ part → v = passed.setDie d (z.discard h (cPart 6 1 part))) ∧
          (rtKind e ≠ 0 → rtPart e = part → usable → ports = [] → v = passed.setDie d (z.discard h (cPart 6 2 part) true)) ∧
          (rtKind e ≠ 0 → rtPart e = part → usable → ports ≠ [] → (∀ o ∈ ports, s.isDown o = false) →
            ∃ o ∈ ports, (v.die d).held = x.held ++ [queued o .queue] ∧ (v.die d).tab = x.tab ∧ v.out = [] ∧ others)) ∧
        (h.vc = 5 →
          let c := x.view.circuit h.circuit.toNat
          let mine : Prop := ccValid c = true ∧ ccPart c = part ∧ ccSrc c = h.src ∧ ccDst c = h.dst
          (¬ mine → v = counted (cPart 8 0 part)) ∧
          (mine → reached x.now (x.view.lease h.circuit.toNat) = true → v = counted (cPart 8 1 part)) ∧
          (mine → reached x.now (x.view.lease h.circuit.toNat) = false → s.isDown (ccEgress c) = false →
            (s.portOk d (ccEgress c) = true → (v.die d).held = x.held ++ [queued (ccEgress c) .circuit] ∧ others) ∧
            (s.portOk d (ccEgress c) = false → v = passed.setDie d (y.discard h (cPart 6 2 part) true))))) ∧
      (h.mailbox = false → s.isDown p.val = true → h.vc = 3 → h.type ≠ 0x18 → h.type ≠ 0x1A →
        let f := flowKey h.part h.src h.dst
        let n := Map.lookD x.spraySeq f 0
        v = (passed.setDie d { y with spraySeq := Map.put x.spraySeq f (n + 1) }).routeByDst d { k with hdr := { h with seq := n } }) ∧
      (s.isDown p.val = true → h.type = 0x18 → h.vc = 6 →
        (∀ o, x.resolve h = .ok o →
          v = (passed.setDie d (y.count (cPart 12 0 part))).routeByDst d { k with hdr := { h with dst := o } }) ∧
        (∀ st, x.resolve h = .error st →
          v = passed.setDie d (Die.convert { (y.count (cPart 12 st.toNat part)) with
            held := x.held ++ [{ k with bin := .missed st }], nextId := x.nextId + 1 } x.nextId)))) ∧
    (∀ id, exec (.notResidentConvert d id) s = .next (if x.on then s.fresh.setDie d (x.convert id) else s.fresh)) ∧
    (∀ (id : Nat) (g : Nat × List (Nat × Nat)) (r : Held) (st : Byte), x.held.find? (fun h => h.id == id) = some r → r.bin = .missed st →
      (x.hasRoom (missReply r.hdr st).key 0 = false → x.convert id = x) ∧
      (x.pickSeg r.hdr.part.toNat 0 = some g → x.hasRoom (missReply r.hdr st).key 0 = true →
        ∃ q, (x.convert id).held = x.held.filter (fun k => k.id != id) ++ [q] ∧ q.outPort = r.inPort ∧ q.data = [] ∧ q.bin = .queue ∧
          q.hdr.dst = r.hdr.src ∧ q.hdr.type = 0x1B ∧ q.hdr.vc = 7 ∧ q.hdr.rstat = st ∧ q.hdr.tag = r.hdr.tag))

/-- Contributions, gathers, blend packets and abort heads reach the pour they name. For a packet of VC1 or VC2 that passes the checks at
a port that takes packets, in an OPEN partition with room and not DRAINED, the command does what is stated here of it and notes
the arrival for flow control. One of VC2 from a down port, and one of a group that is not valid for its partition, is discarded. A
CONTRIB or GATHER_IN packet from a down port: one whose sender has no rank in the group, or whose run has ended, is discarded; one
of a pour recorded as aborted is counted, and ends with its completion word; one whose block is at home here extends the input of
its rank at level 1 by its bytes within the capacity and ends the run unless it is full, while no bridge pair that the pour needs
is down; one whose block is at home elsewhere is relayed, with what the member has given counted within the capacity. A packet
with a blend head that is for another die joins the queue of the port towards it, or is discarded without one. Of the others, KIND
1, 2 and 3 are inputs at level 2, of their slot at level 3, and at delivery, with their data at their offset, their LAST and their
length, and KIND 4 a contribution at level 1, unless the pour is recorded as aborted, which discards them, KIND 4 with the
completion word at the end of its run. KIND 5 is a relayed result. KIND 6 ends the pour, recorded with the head's status: at a die
that is no home die at once, at a home die at the next boundary unless the delivery has all it needs by then. -/
def Obligations.PoursTakeTheirPackets : Prop :=
  (∀ (s : State) (d : DieId) (p : PortId) (w : BitVec 256) (bs : List Byte) (t : Nat) (g : Nat × List (Nat × Nat)),
    let x := s.die d
    let h := s.stamp d p.val (Hdr.ofWord w)
    let part := h.part.toNat
    let grp := x.view.group h.group.toNat
    let c := grp.control
    let passed := s.fresh.setDie d (({ x with clock := t } : Die).countRx p.val (Hdr.ofWord w))
    let y := passed.die d
    let pk : Held := { id := x.nextId, inPort := p.val, outPort := 0, hdr := h, data := bs, bin := .queue, seg := g.1, cells := g.2,
                       tick := x.now }
    let u := passed.setDie d { y with nextId := x.nextId + 1 }
    let v := passed.takeCollective d pk
    let does (i : Instr) : Prop :=
      exec i s = .next ((v.cutThrough passed d p.val t x.nextId).noteArrival d p.val (s.arrivalKey p.val h) h.bytes)
    let others : Prop := ∀ e, e ≠ d → v.die e = s.die e
    let closed (z : State) : State := z.setDie d ((z.die d).discard h (cPart 11 0 part))
    let bridged : Prop := ∀ e, e ≠ d → (x.port (bridgePort d e)).inService = true ∨ (x.port (bridgePort d e + 1)).inService = true ∨
      s.needsSibling d { group := h.group, gather := if h.vc = 1 ∧ s.isDown p.val = true then h.type = 0x09 else
        (BlendHead.ofWord (BitVec.ofNat 256 (leNat (bs.take 32)))).gather, pour := h.pour } (s.leafIndex e) = false
    let rows : List Instr := [.packetIngress d p w ⟨bs, t⟩, .contrib d p w ⟨bs, t⟩, .gatherIn d p w ⟨bs, t⟩, .blendPacket d p w ⟨bs, t⟩,
      .blendAbort d p w ⟨bs, t⟩]
    s.takes d p.val = true → p.val ≠ 71 → s.ingressFault d p.val w = none → h.mailbox = false → (h.vc = 1 ∨ h.vc = 2) →
    (x.view.part part).state = .opened → Map.lookD x.drained h.key false = false → passed.admits d p.val h = some g →
    (∀ i ∈ rows, i.wf = true → does i) ∧
    (s.isDown p.val = true → h.vc = 2 → v = closed passed) ∧
    (s.isDown p.val = false → gValid c = false ∨ gPart c ≠ part → v = closed passed) ∧
    (s.isDown p.val = true → h.vc = 1 →
      let k : PourKey := { group := h.group, gather := h.type = 0x09, pour := h.pour }
      let cap := capacity c k.gather
      let live : Prop := ∀ r, x.record k = some r → r.status = 0
      ((gValid c = false ∨ gPart c ≠ part ∨ s.rankOf d c h.src = none) → v = closed u) ∧
      ∀ r l, gValid c = true → gPart c = part → s.rankOf d c h.src = some r → grp.home (r / 32) = some l →
        let run := x.runSoFar k r
        (∀ a, x.record k = some a → a.status ≠ 0 → v = u.lateContribution d h k a r) ∧
        (live → run.2 = true → v = closed u) ∧
        (live → run.2 = false → l = s.leafIndex d → bridged → x.relayUps.find? (fun o => o.key == k && o.rank == r) = none →
          ∃ q n, (v.die d).pourAt k .level1 = some q ∧ Map.look q.inputs (r % 32) = some n ∧
            n.len = run.1 + min bs.length (cap - run.1) ∧ n.last = (h.len != 4096) ∧ others) ∧
        (live → run.2 = false → l ≠ s.leafIndex d →
          let old := ((x.relayUps.find? fun o => o.key == k && o.rank == r).map (·.kept)).getD 0
          ∃ o ∈ (v.die d).relayUps, o.key = k ∧ o.rank = r ∧ o.kept = old + min bs.length (cap - old) ∧
            o.last = (h.len != 4096) ∧ others)) ∧
    (s.isDown p.val = false → gValid c = true → gPart c = part →
      let hd := BlendHead.ofWord (BitVec.ofNat 256 (leNat (bs.take 32)))
      let k : PourKey := { group := h.group, gather := hd.gather, pour := h.pour }
      let live : Prop := ∀ r, x.record k = some r → r.status = 0
      (s.passes d h hd = true →
        (∀ o, s.passTo d p.val h.vc.toNat (leafOf h.dst) = some o → ∃ q, (v.die d).held = x.held ++ [q] ∧ q.outPort = o ∧
          q.data = le 32 hd.word.toNat ++ bs.drop 32 ∧ q.bin = .queue ∧ others) ∧
        (s.passTo d p.val h.vc.toNat (leafOf h.dst) = none →
          v = passed.setDie d (y.discard h (cPart 6 2 part) true))) ∧
      (s.passes d h hd = false →
        (∀ a, x.record k = some a → a.status ≠ 0 →
          (hd.kind = 4 → v = u.lateRelay d k h.part h hd a) ∧
          (hd.kind ≠ 4 → hd.kind ≠ 5 → hd.kind ≠ 6 → v = u.setDie d ((u.die d).discard h (cPart 11 1 part)))) ∧
        (live → bridged → ∀ pl slot, ((hd.kind = 1 ∧ pl = .level2 ∧ slot = 0) ∨ (hd.kind = 3 ∧ pl = .delivery ∧ slot = 0) ∨
            (hd.kind = 2 ∧ pl = .level3 ∧ slot = slotOf c k.gather hd.offset.toNat)) →
          ∃ q n, (v.die d).pourAt k pl slot = some q ∧ Map.look q.inputs hd.pos.toNat = some n ∧ n.len = hd.pourLen.toNat ∧
            (hd.last = true → n.last = true) ∧ (32 < bs.length → Map.look n.data hd.offset.toNat = some (bs.drop 32)) ∧ others) ∧
        (live → bridged → hd.kind = 4 → ∃ q n, (v.die d).pourAt k .level1 = some q ∧
          Map.look q.inputs (hd.pos.toNat % 32) = some n ∧ n.len = hd.pourLen.toNat ∧ (hd.last = true → n.last = true) ∧ others) ∧
        (live → (hd.kind = 0 ∨ hd.kind = 7) → v = u.setDie d ((u.die d).discard h (cPart 11 0 part))) ∧
        (hd.kind = 5 → v = u.relayDown d k h.part hd (bs.drop 32) h.mark) ∧
        (hd.kind = 6 →
          let heads := s.isSpine || h.vc == 1
          (gHomeValid c = true → v = u.setDie d { (u.die d) with abortDue := x.abortDue ++ [(k, hd.abort, h.mark, heads)] }) ∧
          (gHomeValid c = false → v = u.abortPour d k hd.abort heads h.mark))))) ∧
  (∀ (s : State) (d : DieId) (k : PourKey) (st : BitVec 4) (heads mark : Bool), (s.die d).record k = none →
    gTimeout ((s.die d).view.group k.group.toNat).control ≠ 0 →
    ∃ r, ((s.abortPour d k st heads mark).die d).record k = some r ∧ r.status = st ∧
      ∀ q ∈ ((s.abortPour d k st heads mark).die d).pours, q.key = k → q.place = .delivery ∧ q.started = true) ∧
  ∀ (s : State) (d : DieId) (k : PourKey) (st : BitVec 4) (heads mark : Bool), (s.die d).abortDue = [(k, st, mark, heads)] →
    let t := s.setDie d { (s.die d) with abortDue := [] }
    s.settleAborts d = if (s.die d).deliveryReady k then t else t.abortPour d k st heads mark

/-- An egress port sends a packet only when it holds permission for it from the next hop. For every state, die, port and every
command at which a packet starts (EGRESS_SELECT, CIRCUIT_SLOT_SEND, and the packet rows, whose packet may go cut-through): every
packet that leaves by a port but 71, which loops back to the die and has no next hop, is one queued for that port, held by the die
before the command where the command is none of arrival, and the port holds flow-control permission for it: XON of its partition
and virtual channel, or of the pool for a packet of segment 47 to another die. Its header is the held one, with the GAP of its
delivery on a down port. -/
def Obligations.SentOnlyWithPermission : Prop :=
  ∀ (s t : State) (i : Instr) (d e : DieId) (p : PortId) (q : Nat) (w v : BitVec 256) (bs l : List Byte) (n : Nat),
    let egress := i = .egressSelect d p n ∨ ∃ slot, i = .circuitSlotSend d p slot
    let arrival := i ∈ [.packetIngress d p v ⟨l, n⟩, .spray d p v ⟨l, n⟩, .circuitData d p v ⟨l, n⟩, .posReq d p v ⟨l, n⟩, .posRsp d p v ⟨l, n⟩,
      .echoNote d p v ⟨l, n⟩, .contrib d p v ⟨l, n⟩, .gatherIn d p v ⟨l, n⟩, .blendPacket d p v ⟨l, n⟩, .blendAbort d p v ⟨l, n⟩,
      .mbxReq d p v ⟨l, n⟩, .mbxRsp d p v ⟨l, n⟩, .mbxEvt d p v ⟨l, n⟩, .diag d v ⟨l, n⟩]
    (egress ∨ arrival) → exec i s = .next t → Out.packet e q w bs ∈ t.out → q ≠ 71 →
      e = d ∧ (egress → q = p.val) ∧ ∃ (h : Held) (gap : Bool), (egress → h ∈ (s.die d).held) ∧
        (({ h.hdr with gap := gap } : Hdr).toWord = w) ∧ (s.isDown q = false → gap = h.hdr.gap) ∧ h.data = bs ∧ h.outPort = q ∧
        (if h.seg = 47 ∧ ((s.die d).port q).farEp = false then ((s.die d).port q).txPool
         else bit ((s.die d).port q).txXon (8 * h.hdr.part.toNat + h.hdr.vc.toNat)) = true

/-- The chosen packet and the slot's packet leave and free their buffer; reach notices go out once, and once more. At a packet
boundary of a port that sends, the packet of a granted slot that starts then leaves when it is ready; otherwise, unless an overrun
takes the slot, the packet that R101 chooses among those that may start leaves. In a granted slot the circuit's oldest packet
leaves when it is ready, above the limit of the port counted and running on over the following slots, and is counted as waiting
while the next hop holds XOFF. A port that does not send does nothing, and port 71 sends the oldest packet of the loop. A packet
that leaves does so with its header, on a down port with its GAP, is held no longer, and its data blocks join those that the port
sends or has yet to see acknowledged. An FC4 that listens on a spine tray sends the notice of a waiting change on every down port in
service, in a mailbox packet, and remembers it; 64 ticks later each notice goes out once more and is forgotten. -/
def Obligations.EgressAndNoticesComplete : Prop :=
  ∀ s : State,
    (∀ (d : DieId) (p : PortId),
      let x := s.die d
      let at_ (n : Nat) : State := s.fresh.setDie d { x with clock := n }
      (s.sends d p.val = false → p.val ≠ 71 →
        (∀ n, exec (.egressSelect d p n) s = .next s.fresh) ∧ ∀ k, exec (.circuitSlotSend d p k) s = .next s.fresh) ∧
      (p.val = 71 → ∀ n, exec (.egressSelect d p n) s = .next (if x.on then s.fresh.sendLoop d else s.fresh)) ∧
      (s.sends d p.val = true →
        (∀ n : Nat,
          let b := at_ n
          (∀ h, b.slotHead d p.val n = some h → exec (.egressSelect d p n) s = .next (b.sendInSlot d p.val (n / x.ns) h)) ∧
          (b.slotHead d p.val n = none →
            (x.overrunAt p.val (n / x.ns) = true → exec (.egressSelect d p n) s = .next b) ∧
            (x.overrunAt p.val (n / x.ns) = false → ∀ q h, (x.port p.val).choose (b.startable d p.val n) = (q, h) →
              exec (.egressSelect d p n) s = .next (match h with
                | some h => (b.modDie d fun z => z.modPort p.val fun _ => q.served h).transmit d p.val n h
                | none => b)))) ∧
        ∀ k : Fin 16,
          let b := at_ (k.val * x.ns)
          (x.slotPacket p.val k.val = none → exec (.circuitSlotSend d p k) s = .next b) ∧
          ∀ h, x.slotPacket p.val k.val = some h →
            let ready := b.slotReady d p.val k.val h
            let past := decide (slotUnits x.ns (x.port p.val) * 256 < h.hdr.len.toNat)
            let gone := b.transmit d p.val (k.val * x.ns) h
            let last := k.val + ceilDiv (x.sendTime p.val h.hdr.bytes) x.ns - 1
            (ready = true → past = false → exec (.circuitSlotSend d p k) s = .next gone) ∧
            (ready = true → past = true → exec (.circuitSlotSend d p k) s = .next (gone.modDie d fun z =>
              { (z.count (cPart 8 2 h.hdr.part.toNat)) with
                overrun := Map.put z.overrun p.val (z.now + BitVec.ofNat 48 (last / 16), last % 16) })) ∧
            (ready = false →
              (x.overrunAt p.val k.val = false → (x.port p.val).permits h = false → exec (.circuitSlotSend d p k) s =
                .next (b.setDie d ((b.die d).count (cPart 8 3 h.hdr.part.toNat)))) ∧
              ((x.overrunAt p.val k.val = true ∨ (x.port p.val).permits h = true) → exec (.circuitSlotSend d p k) s = .next b)))) ∧
    (∀ (v : State) (d : DieId) (p n : Nat) (h : Held),
      let x := v.die d
      let t := v.transmit d p n h
      let hdr := if v.isDown p then (x.deliverHdr h.hdr).2 else h.hdr
      (∃ l, t.out = v.out ++ .packet d p hdr.toWord h.data :: l) ∧ (t.die d).held = x.held.filter (fun g => g.id != h.id) ∧
        ((t.die d).port p).retry ++ ((t.die d).port p).wait =
          (x.port p).retry ++ (x.port p).wait ++ packetBlocks hdr h.data ∧ ∀ e, e ≠ d → t.die e = v.die e) ∧
    (let mail (n : Notice) (e : DieId × Nat) : Mail :=
       { d := e.1, port := e.2, type := 3, tag := none,
         bytes := { kind := 4, op := 0x0B40, seq := Config.mailSeq 0x0B40 (n.decl.setWidth 16) : FrameHead }.bytes n.bytes }
     s.listening = true →
      (∀ (q : Fin 32) (l : Fin 64) (up : Bool) (decl : Tick), s.isSpine = true →
        Map.look s.notes.due (64 * q.val + l.val) = some (up, decl) →
        let n : Notice := { plane := BitVec.ofNat 2 s.plane, spine := BitVec.ofNat 5 q.val, leaf := BitVec.ofNat 6 l.val,
                            restored := up, decl := decl }
        exec (.reachNoticeSend (BitVec.ofNat 8 q.val) (BitVec.ofNat 8 l.val)) s = .next { s with
          notes := { s.notes with due := Map.rem s.notes.due (64 * q.val + l.val), sent := s.notes.sent ++ [(n, s.boot.now)] },
          out := s.noticePorts.map fun e => Out.notice e.1 e.2 n,
          mbx := { s.mbx with outbox := s.mbx.outbox ++ s.noticePorts.map (mail n) } }) ∧
      (let due (e : Notice × Tick) : Bool := !within s.boot.now e.2 64
       exec .noticeRepeat s = .next { s with
         notes := { s.notes with sent := s.notes.sent.filter fun e => !due e },
         out := (s.notes.sent.filter due).flatMap fun n => s.noticePorts.map fun e => Out.notice e.1 e.2 n.1,
         mbx := { s.mbx with
           outbox := s.mbx.outbox ++ (s.notes.sent.filter due).flatMap fun n => s.noticePorts.map (mail n.1) } }))

/-- Route flips and retirements, leases, re-maps, COLL_OUT, gap timers and DRAINED take effect at their boundary and not before. On
a powered die: at the flip tick the SEALED version becomes ACTIVE and the ACTIVE version LINGER until the LINGER_TICKS of the flip's
acceptance later, and at the retire tick the LINGER version is RETIRED; before those ticks the versions stand; no other table of the
die and no other partition changes. The end of a lease writes nothing. A re-map that has fallen due writes the alias, the epoch and
LOST_TICK of the old endpoint and is pending no longer; one not due changes nothing. COLL_OUT takes the changes that have fallen due
and keeps the others waiting. A gap timer of 16 ticks declares the missing sequences lost, and 64 ticks without a packet make a
quiesced virtual channel DRAINED. -/
def Obligations.BoundaryEffectsComplete : Prop :=
  ∀ (s : State) (d : DieId), (s.die d).on = true →
    let x := s.die d
    let others (t : State) : Prop := (∀ e, e ≠ d → t.die e = s.die e) ∧ t.tok = s.tok ∧ t.fuse = s.fuse
    (∀ part : BitVec 4,
      let r := x.tab.ver part.toNat
      let moved (i : Instr) (r' : Ver) : Prop := ∃ t, exec i s = .next t ∧ (t.die d).tab.ver part.toNat = r' ∧
        (∀ q, q ≠ part.toNat → (t.die d).tab.ver q = x.tab.ver q) ∧ (t.die d).tab.route0 = x.tab.route0 ∧
        (t.die d).tab.route1 = x.tab.route1 ∧ (t.die d).held = x.held ∧ (t.die d).ports = x.ports ∧ t.out = [] ∧ others t
      (∀ f, r.flip = some f → reached x.now f = true → r.st (!r.sel) = .sealed →
        moved (.routeFlipEffect d part)
          { r with sel := !r.sel, v0 := (if r.sel then .active else .linger), v1 := (if r.sel then .linger else .active), flip := none,
                   retire := some (f + r.flipLinger.setWidth 48) }) ∧
      ((r.flip = none ∨ ∃ f, r.flip = some f ∧ reached x.now f = false) →
        moved (.routeFlipEffect d part) r ∧
        (∀ f, r.retire = some f → reached x.now f = true →
          moved (.routeRetire d part) { (r.setSt (!r.sel) .retired) with retire := none }) ∧
        ((r.retire = none ∨ ∃ f, r.retire = some f ∧ reached x.now f = false) → moved (.routeRetire d part) r))) ∧
    (∀ c : BitVec 12, exec (.leaseExpiry d c) s = .next s.fresh) ∧
    (∀ (part : BitVec 4) (r : Remap), Map.look x.remaps part.toNat = some r →
      let old := (x.view.aliasOf part.toNat r.rank.toNat x.now).getD r.rank
      (reached x.now r.effect = true → ∃ t, exec (.remapEffect d part) s = .next t ∧
        Map.look (t.die d).tab.ranks (2048 * part.toNat + r.rank.toNat) = some (1#1 ++ 0#4 ++ r.spare) ∧
        (∀ k, k ≠ 2048 * part.toNat + r.rank.toNat → Map.look (t.die d).tab.ranks k = Map.look x.tab.ranks k) ∧
        ((t.die d).tab.part part.toNat).aliasEpoch = r.epoch ∧ Map.look (t.die d).tab.lost old.toNat = some x.now ∧
        (t.die d).tab.groups = x.tab.groups ∧ (t.die d).tab.vers = x.tab.vers ∧ (t.die d).remaps = Map.rem x.remaps part.toNat ∧
        others t) ∧
      (reached x.now r.effect = false → exec (.remapEffect d part) s = .next s.fresh)) ∧
    (∃ t, exec (.collOutEffect d) s = .next t ∧ (t.die d).tab.collOut = x.collDue.1 ∧ (t.die d).view.collOut = x.collDue.1 ∧
      (t.die d).collNext = x.collNext.filter (fun c => !reached x.now c.1) ∧ (t.die d).tab.groups = x.tab.groups ∧ others t) ∧
    (∀ (part : BitVec 4) (src dst : BitVec 11) (t : Tick), (x.spray (flowKey part src dst)).timer = some t →
      (within x.now t 16 = false → exec (.gapTimeout d part src dst) s =
        .next (s.fresh.setDie d (x.declareGap (flowKey part src dst) 1))) ∧
      (within x.now t 16 = true → exec (.gapTimeout d part src dst) s = .next s.fresh)) ∧
    ∀ (part : BitVec 4) (vc : BitVec 3) (t : Tick),
      let k := 8 * part.toNat + vc.toNat
      Map.look x.idleFrom k = some t → bit (x.view.part part.toNat).quiesced vc.toNat = true →
      (reached x.now (t + 64) = true → x.holdsKey k = false →
        exec (.drainedEntry d part vc) s = .next (s.fresh.setDie d { x with drained := Map.put x.drained k true })) ∧
      ((reached x.now (t + 64) = false ∨ x.holdsKey k = true) → exec (.drainedEntry d part vc) s = .next s.fresh)

/-- XON goes only to a wanting port that nothing withholds it from; idle ports lose it; throttle engages, ends and is reported.
On a powered die: XON_GRANT gives XON of its partition and virtual channel only to ports that want it and from which no holder
of R635 withholds it, takes none away, and gives none where the room is below 258 cells; a single wanting port with room
receives it, in two copies of a FLOW word. A port that holds XON and has delivered nothing for 16 ticks loses XON, in two
copies; a port within 16 ticks keeps it. Throttle engages on a queue where R251 finds it due and nowhere else, and ends below half the
threshold that engaged it and not before. A window of 256 ticks that has ended is counted into the runs of the queues marked or
throttled in it, and exactly the runs that reach 16 windows raise their event, with the cause whether throttle was engaged. -/
def Obligations.FlowAndThrottleComplete : Prop :=
  ∀ (s : State) (d : DieId), (s.die d).on = true →
    let x := s.die d
    let others (t : State) : Prop := (∀ e, e ≠ d → t.die e = s.die e) ∧ t.tok = s.tok ∧ t.fuse = s.fuse ∧
      (t.die d).tab = x.tab ∧ (t.die d).held = x.held
    let copies (t : State) (pre : List Out) (p k : Nat) : Prop :=
      let e := (t.die d).entryOf p (k / 8)
      t.out = pre ++ [.word d p (flowWordOf e e e e), .word d p (flowWordOf e e e e)]
    (∀ (part : BitVec 4) (vc : BitVec 3),
      let key := 8 * part.toNat + vc.toNat
      ∃ t, exec (.xonGrant d part vc) s = .next t ∧ others t ∧
        (∀ p k, (x.port p).holdsXon k = true → ((t.die d).port p).holdsXon k = true) ∧
        (∀ p k, ((t.die d).port p).holdsXon k = true → (x.port p).holdsXon k = false →
          k = key ∧ p ∈ x.wanting key ∧ s.withholds d p key = false ∧ (x.resSum key : Int) + (x.skid p : Int) + 258 ≤ x.roomOf key) ∧
        (∀ p, x.wanting key = [p] → s.withholds d p key = false → (x.resSum key : Int) + (x.skid p : Int) + 258 ≤ x.roomOf key →
          ((t.die d).port p).holdsXon key = true ∧ ∃ pre, copies t pre p key)) ∧
    (∀ (p : PortId) (part : BitVec 4) (vc : BitVec 3) (r : Tick),
      let key := 8 * part.toNat + vc.toNat
      (x.port p.val).holdsXon key = true → Map.look (x.port p.val).lastRx key = some r →
      (within x.now r 16 = true → exec (.xonIdleRevoke d p part vc) s = .next s.fresh) ∧
      (within x.now r 16 = false → ∃ t, exec (.xonIdleRevoke d p part vc) s = .next t ∧ others t ∧
        ((t.die d).port p.val).holdsXon key = false ∧ copies t [] p.val key ∧
        Map.look ((t.die d).port p.val).xoffs key = some { tick := x.now, at_ := x.clock, arrived := 0 } ∧
        ∀ q k, q ≠ p.val ∨ k ≠ key → ((t.die d).port q).holdsXon k = (x.port q).holdsXon k)) ∧
    (∀ (p : PortId) (part : BitVec 4) (vc : BitVec 3),
      let k := queueKey p.val part.toNat vc.toNat
      (Map.look x.throttled k = none →
        (∀ b, s.throttleDue d p.val part.toNat vc.toNat = some b →
          ∃ t, exec (.throttleEngage d p part vc) s = .next t ∧ (t.die d).throttled = Map.put x.throttled k b ∧
            (t.die d).window = Map.upd x.window k 0 (fun n => n ||| 2) ∧ others t) ∧
        (s.throttleDue d p.val part.toNat vc.toNat = none → exec (.throttleEngage d p part vc) s = .next s.fresh) ∧
        exec (.throttleEnd d p part vc) s = .next s.fresh) ∧
      ∀ b, Map.look x.throttled k = some b →
        exec (.throttleEngage d p part vc) s = .next s.fresh ∧
        (x.throttleOver p.val part.toNat vc.toNat b = false → exec (.throttleEnd d p part vc) s = .next s.fresh) ∧
        (x.throttleOver p.val part.toNat vc.toNat b = true →
          ∃ t, exec (.throttleEnd d p part vc) s = .next t ∧ (t.die d).throttled = Map.rem x.throttled k ∧ others t)) ∧
    (x.ended = none → exec (.oversubWindowEnd d) s = .next s.fresh) ∧
    ∀ w, x.ended = some w → exec (.oversubWindowEnd d) s =
      .next (((x.nextRuns w).filter fun e => e.2.1 == 16).foldl (fun (t : State) e =>
        t.raiseDie 0x0982 d (BitVec.ofNat 8 (e.1 / 128)) (BitVec.ofNat 8 (e.1 % 128 / 8)) (BitVec.ofNat 8 (e.1 % 8))
          (if e.2.2 then 2 else 1) (le 4 16)) (s.fresh.setDie d { x with ended := none, runs := x.nextRuns w }))

/-- Stages start once inputs and pot are there, late pours abort, zeroing ends on time, and a touched partition is fenced. On a
powered die: a pour with all its inputs and its pot starts its stage at the next boundary and no other pour starts; one that is
alone of its name at its place takes a pot that is free and runs its stage, its slip counted, or is counted as waiting for a pot and
does not start; one without its inputs after POUR_TIMEOUT is aborted and recorded as TIMEOUT, and one in time is not; the record
ends when its time is over and not before, and no other record goes. Pots and segments whose zeroing has ended are usable, others
are not. A partition in REOPENING whose zeroing is done enters OPEN. A touched partition in OPEN or REOPENING is FENCED, with no XON
left for it on any port that carries packets; in any other state only the touch is forgotten; from 64 ticks later its held packets
are discarded, and no packet of another partition, or of segment 47, is. -/
def Obligations.PoursZeroingAndFencesComplete : Prop :=
  ∀ (s : State) (d : DieId), (s.die d).on = true →
    let x := s.die d
    let others (t : State) : Prop := (∀ e, e ≠ d → t.die e = s.die e) ∧ t.tok = s.tok ∧ t.fuse = s.fuse
    (∀ (k : PourKey) (pl : Place),
      let c := (x.view.group k.group.toNat).control
      let ready (q : Pour) : Bool := q.key == k && q.place == pl && !q.started && q.complete c && later x.now q.lastIn
      let late (q : Pour) : Bool :=
        q.key == k && q.place == pl && !q.started && !q.complete c && reached x.now (q.first + BitVec.ofNat 48 (gTimeout c))
      (∀ (n : Nat) (q : Pour), (pl ≠ .level3 → n = 0) → x.pourAt k pl n = some q → ready q = true →
        (∃ t, exec (.blendStageStart d k pl) s = .next t ∧ others t ∧ (t.die d).tab = x.tab ∧
          ((needsPot k pl = true → q.pot.isSome = true) → x.record k = none →
            ∀ r, (t.die d).pourAt k pl n = some r → r.started = true)) ∧
        (x.pours.filter (fun q => q.key == k && q.place == pl) = [q] →
          let z := x.givePot k q.part pl n true
          ∀ r, z.pourAt k pl n = some r →
            (needsPot k pl = true → r.pot = none →
              exec (.blendStageStart d k pl) s = .next (s.fresh.setDie d (z.waitPot r))) ∧
            ((needsPot k pl = true → r.pot.isSome = true) →
              exec (.blendStageStart d k pl) s = .next (State.runStage { (s.fresh.setDie d
                (z.count (cDie 4 1) ((s.fresh.setDie d z).slipped d r).toNat)) with free := s.free + 1 } d r)))) ∧
      ((∀ q ∈ x.pours, ready q = false) → exec (.blendStageStart d k pl) s = .next s.fresh) ∧
      ((∃ q ∈ x.pours, late q = true) → x.record k = none → gTimeout c ≠ 0 →
        ∃ t r, exec (.pourTimeout d k pl) s = .next t ∧ others t ∧ (t.die d).tab = x.tab ∧ (t.die d).record k = some r ∧
          r.status = 4 ∧ ∀ q ∈ (t.die d).pours, q.key = k → q.place = .delivery ∧ q.started = true) ∧
      ((∀ q ∈ x.pours, late q = false) → exec (.pourTimeout d k pl) s = .next s.fresh) ∧
      ((∃ r ∈ x.aborts, r.key = k ∧ reached x.now r.until_ = true) →
        ∃ t, exec (.abortRecordExpiry d k) s = .next t ∧ others t ∧ (t.die d).aborts = x.aborts.filter (fun r => r.key != k) ∧
          (t.die d).pours = x.pours ∧ (t.die d).tab = x.tab) ∧
      ((∀ r ∈ x.aborts, r.key = k → reached x.now r.until_ = false) → exec (.abortRecordExpiry d k) s = .next s.fresh)) ∧
    (let past (j : ZeroJob) : Bool := decide (j.endNs ≤ x.now.toNat * x.ns)
     let ended (js : List ZeroJob) (n : Nat) : Bool := js.any fun j => j.item == n && past j
     let waits (js : List ZeroJob) (n : Nat) : Bool := js.any fun j => j.item == n && !past j
     (∃ t, exec (.potZeroDone d) s = .next t ∧ others t ∧ (t.die d).tab = x.tab ∧
        (t.die d).potJobs = x.potJobs.filter (fun j => !past j) ∧
        ∀ n, (t.die d).pot n = { x.pot n with zeroing := if ended x.potJobs n then waits x.potJobs n else (x.pot n).zeroing }) ∧
     ∃ t, exec (.segmentZeroDone d) s = .next t ∧ others t ∧ (t.die d).segJobs = x.segJobs.filter (fun j => !past j) ∧
       (t.die d).tab.parts = x.tab.parts ∧ (t.die d).held = x.held ∧
       ∀ n, let g := x.tab.seg n
         (g.returning = false → (t.die d).tab.seg n =
           { g with inQuota := if ended x.segJobs n && !waits x.segJobs n then g.owner.isSome else g.inQuota }) ∧
         (g.returning = true → (x.view.seg n).returning = true → x.segUsage n = (0, 0) → waits x.segJobs n = false →
           (t.die d).tab.seg n = { g with owner := none, inQuota := false, returning := false })) ∧
    ∀ part : BitVec 4,
      let p := part.toNat
      let q := x.tab.part p
      (q.state = .reopening → (x.view.part p).state = .reopening →
        (x.zeroing p = false → ∃ t, exec (.partOpenReady d part) s = .next t ∧ others t ∧
          (t.die d).tab.part p = { q with state := .opened } ∧ (∀ o, o ≠ p → (t.die d).tab.part o = x.tab.part o) ∧
          (t.die d).tab.segs = x.tab.segs ∧ (t.die d).held = x.held) ∧
        (x.zeroing p = true → exec (.partOpenReady d part) s = .next s.fresh)) ∧
      (bit x.touched p = false → exec (.partFence d part) s = .next s.fresh) ∧
      (bit x.touched p = true → (q.state = .closed ∨ q.state = .fenced) →
        exec (.partFence d part) s = .next (s.fresh.setDie d { x with touched := setBit x.touched p false })) ∧
      (bit x.touched p = true → (q.state = .opened ∨ q.state = .reopening) →
        ∃ t, exec (.partFence d part) s = .next t ∧ others t ∧ (t.die d).tab.part p = { q with state := .fenced } ∧
          (∀ o, o ≠ p → (t.die d).tab.part o = x.tab.part o) ∧ Map.look (t.die d).fencedAt p = some x.now ∧
          ∀ e ∈ x.ports, e.1 < 70 → e.2.carries = true → ∀ v, v < 8 → ((t.die d).port e.1).holdsXon (8 * p + v) = false) ∧
      ∀ f, Map.look x.fencedAt p = some f → q.state = .fenced →
        (reached x.now (f + 64) = false → exec (.fenceDiscard d part) s = .next s.fresh) ∧
        (reached x.now (f + 64) = true → ∃ t, exec (.fenceDiscard d part) s = .next t ∧ others t ∧ (t.die d).tab = x.tab ∧
          (t.die d).held = x.held.filter (fun h => !(h.seg != 47 && h.hdr.part.toNat == p)))

/-- Every command answers a next state and leaves the queue as it was, but a packet row on an operand that is no such packet.
For every command and every state: exec answers a next state whose queue is the queue it was given, so no command waits, refuses
or stops on data; the only exception is a packet row whose operand fails its well-formedness check, which is no command of the
table and faults as ill-formed. -/
def Obligations.EveryCommandHasItsEffect : Prop :=
  ∀ (i : Instr) (s : State), (∃ t, exec i s = .next t ∧ t.pending = s.pending) ∨
    (i.wf = false ∧ ∃ row, exec i s = .fault (.illFormed row))

/-- Every step keeps the memories canonical, the event queues within 256 events, the data caps canonical and GRADE within 0 to
3. For every state that is safe (its five byte memories and the data caps are in canonical form, no event queue holds more than
256 events, GRADE is 0 to 3): if a step answers a next state, that state is safe. -/
def Obligations.SafeStatesStaySafe : Prop :=
  ∀ s t : State, s.safe = true → step s = .next t → t.safe = true

/-- The state at reset is safe and holds the reset values that the spec gives. At reset: the state is safe; no command waits and
nothing has left the tray; the token is free with epoch 0 and no claim waits; the FC4 runs no stage of bring-up, every die is
unpowered with every partition CLOSED, version 0 ACTIVE and version 1 RETIRED, LINGER_TICKS 4,096, CIRC_CAP 2, the lease 2,500
ticks and the shares of STREAM, every leaf reachable by every spine, MARK_THRESH 16 KiB and THROTTLE_THRESH 32 KiB per lane, no
port assigned, every segment free and every lane group's port DISABLED. That reset is the always-on block powered before the
input switch closes (the stage and the unpowered dies) is the model's choice, log entry 2. -/
def Obligations.ResetIsSafeAndHoldsTheSpecsValues : Prop :=
  State.reset.safe = true ∧ State.reset.pending = [] ∧ State.reset.out = [] ∧ State.reset.tok.holder = none ∧
    State.reset.tok.epoch = 0 ∧ State.reset.tok.claims = [] ∧ State.reset.boot.stage = .alwaysOn ∧ State.reset.listening = false ∧
    ∀ d : DieId, let x := State.reset.die d
      x.on = false ∧ x.held = [] ∧ (∀ p, (x.port p).state = .disabled) ∧
      ∀ t, (t = x.tab ∨ t = x.view) →
        (∀ p, (t.part p).state = .closed ∧ (t.part p).circCap = 2 ∧ (t.part p).defLease = 2500 ∧ (t.part p).layer = false ∧
          (t.part p).restart = false ∧ (t.part p).shares = 0x020201040A060601#64 ∧ (t.part p).quiesced = 0 ∧
          (t.ver p).sel = false ∧ (t.ver p).v0 = .active ∧ (t.ver p).v1 = .retired ∧ (t.ver p).linger = 4096 ∧
          (∀ n now, t.aliasOf p n now = none) ∧ ∀ vc, (t.congOf p vc).mark = 16384 ∧ (t.congOf p vc).throttle = 32768) ∧
        (∀ l, t.reachOf l = BitVec.allOnes 32) ∧ (∀ n, (t.seg n).owner = none ∧ t.circuit n = 0 ∧ (t.entry n).valid = false) ∧
        t.portPart = []

/-- Every fuse bit that is 1 stays 1 through every command, and fuse.read returns the whole array. For every command, every
state and each of the 4,096 bits of the fuse array: a bit that is 1 is 1 in the next state, whatever the command, loss of the
always-on block included; and fuse.read, accepted, answers all 512 bytes of the array and changes none. -/
def Obligations.FuseBitsOnlyRise : Prop :=
  (∀ (i : Instr) (s t : State) (b : Nat), exec i s = .next t → s.fuse.bits.getLsbD b = true → t.fuse.bits.getLsbD b = true) ∧
  ∀ (f : Frame) (s : State) (c : Cmd), s.request (.fuseRead f) = some (f, c) → s.accepts c f = true →
    Answers (exec (.fuseRead f) s) s f 0x0D01 .ok (le 512 s.fuse.bits.toNat)

/-- The token epoch never falls, and returns to 0 only when the always-on block loses power. Take the states whose waiting
claims all name an epoch above the token epoch and were accepted in one tick (R407, R408). From every such state every command
leads to such a state again, the token epoch does not fall through any command but the loss of the always-on block, FC4 resets
and every change of power state included, and that loss sets it to 0. The state at reset is one of them. -/
def Obligations.TheTokenEpochOnlyRises : Prop :=
  let inv (s : State) : Prop := (∀ c ∈ s.tok.claims, s.tok.epoch.toNat < c.epoch.toNat) ∧
    ∀ c ∈ s.tok.claims, ∀ e ∈ s.tok.claims, c.tick = e.tick
  inv State.reset ∧
  ∀ (i : Instr) (s t : State), inv s → exec i s = .next t →
    inv t ∧ (i ≠ .alwaysOnLoss → s.tok.epoch.toNat ≤ t.tok.epoch.toNat) ∧ (i = .alwaysOnLoss → t.tok.epoch = 0)
end

