-- ==== Sys2Proof/Laws/Memory.lean ====
section
/-! SUPPORT. Laws of sparse tables and byte memories: a read after a write, and the canonical form that every operation keeps. -/

namespace Sys2Proof.Machine

variable {α : Type}

/-- Every key of a table is above `k`. -/
def Map.above (k : Nat) (m : Map α) : Prop := ∀ e ∈ m, k < e.1

theorem Map.wf_cons (e : Nat × α) (m : Map α) : Map.wf (e :: m) = true ↔ Map.above e.1 m ∧ Map.wf m = true := by
  induction m generalizing e with
  | nil => simp [Map.wf, Map.above]
  | cons f r ih =>
    obtain ⟨k, b⟩ := f
    obtain ⟨j, a⟩ := e
    have h := ih (k, b)
    simp only [Map.wf, Bool.and_eq_true, decide_eq_true_eq, h, Map.above, List.mem_cons, forall_eq_or_imp]
    constructor
    · rintro ⟨h1, h2, h3⟩
      exact ⟨⟨h1, fun e he => Nat.lt_trans h1 (h2 e he)⟩, h2, h3⟩
    · rintro ⟨⟨h1, -⟩, h2, h3⟩
      exact ⟨h1, h2, h3⟩

theorem Map.look_above {m : Map α} {j : Nat} (h : Map.above j m) : Map.look m j = none := by
  induction m with
  | nil => rfl
  | cons e r ih =>
    obtain ⟨k, a⟩ := e
    have hk : j < k := h (k, a) (by simp)
    simp only [Map.look, Nat.ne_of_gt hk, if_false]
    exact ih fun e he => h e (by simp [he])

@[simp] theorem Map.look_put_self (m : Map α) (k : Nat) (a : α) : Map.look (Map.put m k a) k = some a := by
  induction m with
  | nil => simp [Map.put, Map.look]
  | cons e r ih =>
    obtain ⟨j, b⟩ := e
    simp only [Map.put]
    split
    · simp [Map.look]
    · split
      · simp [Map.look]
      · next h => simp [Map.look, Ne.symm h, ih]

/-- What a table holds at a key is one of its entries. -/
theorem Map.look_mem {m : Map α} {k : Nat} {a : α} (h : Map.look m k = some a) : (k, a) ∈ m := by
  induction m with
  | nil => simp [Map.look] at h
  | cons e r ih =>
    obtain ⟨i, b⟩ := e
    simp only [Map.look] at h
    split at h
    · rename_i hi
      cases h
      subst hi
      exact List.mem_cons_self
    · exact List.mem_cons_of_mem _ (ih h)

theorem Map.look_put_ne (m : Map α) {k j : Nat} (a : α) (h : j ≠ k) : Map.look (Map.put m k a) j = Map.look m j := by
  induction m with
  | nil => simp [Map.put, Map.look, Ne.symm h]
  | cons e r ih =>
    obtain ⟨i, b⟩ := e
    simp only [Map.put]
    split
    · simp [Map.look, Ne.symm h]
    · split
      · next h2 => subst h2; simp [Map.look, Ne.symm h]
      · simp [Map.look, ih]

theorem Map.look_rem_ne (m : Map α) {k j : Nat} (h : j ≠ k) : Map.look (Map.rem m k) j = Map.look m j := by
  induction m with
  | nil => rfl
  | cons e r ih =>
    obtain ⟨i, b⟩ := e
    simp only [Map.rem]
    split
    · next h2 => subst h2; simp [Map.look, Ne.symm h]
    · simp [Map.look, ih]

theorem Map.look_rem_self {m : Map α} (hw : Map.wf m = true) (k : Nat) : Map.look (Map.rem m k) k = none := by
  induction m with
  | nil => rfl
  | cons e r ih =>
    obtain ⟨i, b⟩ := e
    have hw := (Map.wf_cons _ _).1 hw
    simp only [Map.rem]
    split
    · next h2 => subst h2; exact Map.look_above hw.1
    · next h2 => simp [Map.look, h2, ih hw.2]

@[simp] theorem Map.lookD_put_self (m : Map α) (k : Nat) (a d : α) : Map.lookD (Map.put m k a) k d = a := by simp [Map.lookD]

theorem Map.lookD_put_ne (m : Map α) {k j : Nat} (a d : α) (h : j ≠ k) : Map.lookD (Map.put m k a) j d = Map.lookD m j d := by
  simp [Map.lookD, Map.look_put_ne m a h]

theorem Map.above_put {m : Map α} {j k : Nat} (a : α) (h : Map.above j m) (hk : j < k) : Map.above j (Map.put m k a) := by
  induction m with
  | nil => simp [Map.put, Map.above, hk]
  | cons e r ih =>
    obtain ⟨i, b⟩ := e
    have hi : j < i := h (i, b) (by simp)
    have hr : Map.above j r := fun e he => h e (by simp [he])
    simp only [Map.put]
    split
    · intro e he
      rcases List.mem_cons.1 he with rfl | he
      · exact hk
      · exact h e he
    · split
      · intro e he
        rcases List.mem_cons.1 he with rfl | he
        · exact hk
        · exact hr e he
      · intro e he
        rcases List.mem_cons.1 he with rfl | he
        · exact hi
        · exact ih hr e he

/-- `put` keeps the keys rising. -/
theorem Map.wf_put {m : Map α} (hw : Map.wf m = true) (k : Nat) (a : α) : Map.wf (Map.put m k a) = true := by
  induction m with
  | nil => simp [Map.put, Map.wf]
  | cons e r ih =>
    obtain ⟨i, b⟩ := e
    obtain ⟨h1, h2⟩ := (Map.wf_cons _ _).1 hw
    simp only [Map.put]
    split
    · next h =>
      refine (Map.wf_cons _ _).2 ⟨?_, hw⟩
      intro e he
      rcases List.mem_cons.1 he with rfl | he
      · exact h
      · exact Nat.lt_trans h (h1 e he)
    · split
      · next h => subst h; exact (Map.wf_cons _ _).2 ⟨h1, h2⟩
      · next h h' =>
        exact (Map.wf_cons _ _).2 ⟨Map.above_put a h1 (by omega), ih h2⟩

theorem Map.rem_sub (m : Map α) (k : Nat) : ∀ e ∈ Map.rem m k, e ∈ m := by
  induction m with
  | nil => simp [Map.rem]
  | cons e r ih =>
    obtain ⟨i, b⟩ := e
    simp only [Map.rem]
    split
    · intro e he; exact List.mem_cons_of_mem _ he
    · intro e he
      rcases List.mem_cons.1 he with rfl | he
      · simp
      · exact List.mem_cons_of_mem _ (ih e he)

/-- `rem` keeps the keys rising. -/
theorem Map.wf_rem {m : Map α} (hw : Map.wf m = true) (k : Nat) : Map.wf (Map.rem m k) = true := by
  induction m with
  | nil => rfl
  | cons e r ih =>
    obtain ⟨i, b⟩ := e
    obtain ⟨h1, h2⟩ := (Map.wf_cons _ _).1 hw
    simp only [Map.rem]
    split
    · exact h2
    · exact (Map.wf_cons _ _).2 ⟨fun e he => h1 e (Map.rem_sub r k e he), ih h2⟩

theorem Map.put_mem (m : Map α) (k : Nat) (a : α) : ∀ e ∈ Map.put m k a, e = (k, a) ∨ e ∈ m := by
  induction m with
  | nil => simp [Map.put]
  | cons e r ih =>
    obtain ⟨i, b⟩ := e
    simp only [Map.put]
    split
    · intro e he
      rcases List.mem_cons.1 he with rfl | he
      · exact .inl rfl
      · exact .inr he
    · split
      · intro e he
        rcases List.mem_cons.1 he with rfl | he
        · exact .inl rfl
        · exact .inr (List.mem_cons_of_mem _ he)
      · intro e he
        rcases List.mem_cons.1 he with rfl | he
        · exact .inr (by simp)
        · rcases ih e he with h | h
          · exact .inl h
          · exact .inr (List.mem_cons_of_mem _ h)

/-! ### Memories -/

/-- A write keeps the canonical form. -/
theorem Mem.wf_write {d : Byte} {m : List Host.Cell} (hw : Mem.wf d m = true) (a : Nat) (b : Byte) :
    Mem.wf d (Mem.write d m a b) = true := by
  simp only [Mem.wf, Bool.and_eq_true, List.all_eq_true, decide_eq_true_eq] at hw ⊢
  unfold Mem.write
  split
  · exact ⟨Map.wf_rem hw.1 a, fun e he => hw.2 e (Map.rem_sub m a e he)⟩
  · next h =>
    refine ⟨Map.wf_put hw.1 a b, fun e he => ?_⟩
    rcases Map.put_mem m a b e he with rfl | he
    · exact h
    · exact hw.2 e he

/-- Writing bytes keeps the canonical form. -/
theorem Mem.wf_writes {d : Byte} (bs : List Byte) {m : List Host.Cell} (hw : Mem.wf d m = true) (a : Nat) :
    Mem.wf d (Mem.writes d m a bs) = true := by
  induction bs generalizing m a with
  | nil => exact hw
  | cons b r ih => exact ih (Mem.wf_write hw a b) (a + 1)

/-- A read after a write to the same address gives the byte written. -/
theorem Mem.read_write_self {d : Byte} {m : List Host.Cell} (hw : Mem.wf d m = true) (a : Nat) (b : Byte) :
    Mem.read d (Mem.write d m a b) a = b := by
  simp only [Mem.wf, Bool.and_eq_true] at hw
  unfold Mem.write Mem.read Map.lookD
  split
  · next h => rw [Map.look_rem_self hw.1, h]; rfl
  · simp

/-- A write leaves every other address alone. -/
theorem Mem.read_write_ne {d : Byte} (m : List Host.Cell) {a c : Nat} (b : Byte) (h : c ≠ a) :
    Mem.read d (Mem.write d m a b) c = Mem.read d m c := by
  unfold Mem.write Mem.read Map.lookD
  split
  · rw [Map.look_rem_ne m h]
  · rw [Map.look_put_ne m b h]

/-- Writing bytes leaves every address outside them alone. -/
theorem Mem.read_writes_ne {d : Byte} (bs : List Byte) (m : List Host.Cell) {a c : Nat} (h : c < a ∨ a + bs.length ≤ c) :
    Mem.read d (Mem.writes d m a bs) c = Mem.read d m c := by
  induction bs generalizing m a with
  | nil => rfl
  | cons b r ih =>
    simp only [List.length_cons] at h
    simp only [Mem.writes]
    rw [ih _ (by omega), Mem.read_write_ne m b (by omega)]

end Sys2Proof.Machine
end

