-- ==== Sys2Proof/Laws/State.lean ====
section
/-! SUPPORT. One lemma for each field and each update of the state and of a die: what the update leaves, and what it writes. -/

namespace Sys2Proof.Machine

variable (s : State) (x : Die)

/-! ### Dies of the tray -/

@[simp] theorem State.die_setDie (d : DieId) (y : Die) : (s.setDie d y).die d = y := by
  match d with | 0 => rfl | 1 => rfl | 2 => rfl | 3 => rfl

theorem State.die_setDie_ne {d e : DieId} (y : Die) (h : e ≠ d) : (s.setDie d y).die e = s.die e := by
  match d, e with
  | 0, 0 => exact absurd rfl h | 1, 1 => exact absurd rfl h | 2, 2 => exact absurd rfl h | 3, 3 => exact absurd rfl h
  | 0, 1 => rfl | 0, 2 => rfl | 0, 3 => rfl | 1, 0 => rfl | 1, 2 => rfl | 1, 3 => rfl
  | 2, 0 => rfl | 2, 1 => rfl | 2, 3 => rfl | 3, 0 => rfl | 3, 1 => rfl | 3, 2 => rfl

@[simp] theorem State.die_modDie (d : DieId) (f : Die → Die) : (s.modDie d f).die d = f (s.die d) := by simp [State.modDie]

theorem State.die_modDie_ne {d e : DieId} (f : Die → Die) (h : e ≠ d) : (s.modDie d f).die e = s.die e :=
  State.die_setDie_ne s _ h

@[simp] theorem State.setDie_die (d : DieId) : s.setDie d (s.die d) = s := by
  match d with | 0 => rfl | 1 => rfl | 2 => rfl | 3 => rfl

@[simp] theorem State.setDie_setDie (d : DieId) (y z : Die) : (s.setDie d y).setDie d z = s.setDie d z := by
  match d with | 0 => rfl | 1 => rfl | 2 => rfl | 3 => rfl

@[simp] theorem State.modDie_modDie (d : DieId) (f g : Die → Die) : (s.modDie d f).modDie d g = s.modDie d fun x => g (f x) := by
  simp [State.modDie]

@[simp] theorem State.setDie_boot (d : DieId) (y : Die) : (s.setDie d y).boot = s.boot := by
  match d with | 0 => rfl | 1 => rfl | 2 => rfl | 3 => rfl
@[simp] theorem State.modDie_boot (d : DieId) (g : Die → Die) : (s.modDie d g).boot = s.boot := State.setDie_boot s d _
@[simp] theorem State.setDie_tok (d : DieId) (y : Die) : (s.setDie d y).tok = s.tok := by
  match d with | 0 => rfl | 1 => rfl | 2 => rfl | 3 => rfl
@[simp] theorem State.modDie_tok (d : DieId) (g : Die → Die) : (s.modDie d g).tok = s.tok := State.setDie_tok s d _
@[simp] theorem State.setDie_mbx (d : DieId) (y : Die) : (s.setDie d y).mbx = s.mbx := by
  match d with | 0 => rfl | 1 => rfl | 2 => rfl | 3 => rfl
@[simp] theorem State.modDie_mbx (d : DieId) (g : Die → Die) : (s.modDie d g).mbx = s.mbx := State.setDie_mbx s d _
@[simp] theorem State.setDie_evs (d : DieId) (y : Die) : (s.setDie d y).evs = s.evs := by
  match d with | 0 => rfl | 1 => rfl | 2 => rfl | 3 => rfl
@[simp] theorem State.modDie_evs (d : DieId) (g : Die → Die) : (s.modDie d g).evs = s.evs := State.setDie_evs s d _
@[simp] theorem State.setDie_fuse (d : DieId) (y : Die) : (s.setDie d y).fuse = s.fuse := by
  match d with | 0 => rfl | 1 => rfl | 2 => rfl | 3 => rfl
@[simp] theorem State.modDie_fuse (d : DieId) (g : Die → Die) : (s.modDie d g).fuse = s.fuse := State.setDie_fuse s d _
@[simp] theorem State.setDie_fw (d : DieId) (y : Die) : (s.setDie d y).fw = s.fw := by
  match d with | 0 => rfl | 1 => rfl | 2 => rfl | 3 => rfl
@[simp] theorem State.modDie_fw (d : DieId) (g : Die → Die) : (s.modDie d g).fw = s.fw := State.setDie_fw s d _
@[simp] theorem State.setDie_mspA (d : DieId) (y : Die) : (s.setDie d y).mspA = s.mspA := by
  match d with | 0 => rfl | 1 => rfl | 2 => rfl | 3 => rfl
@[simp] theorem State.modDie_mspA (d : DieId) (g : Die → Die) : (s.modDie d g).mspA = s.mspA := State.setDie_mspA s d _
@[simp] theorem State.setDie_mspB (d : DieId) (y : Die) : (s.setDie d y).mspB = s.mspB := by
  match d with | 0 => rfl | 1 => rfl | 2 => rfl | 3 => rfl
@[simp] theorem State.modDie_mspB (d : DieId) (g : Die → Die) : (s.modDie d g).mspB = s.mspB := State.setDie_mspB s d _
@[simp] theorem State.setDie_pow (d : DieId) (y : Die) : (s.setDie d y).pow = s.pow := by
  match d with | 0 => rfl | 1 => rfl | 2 => rfl | 3 => rfl
@[simp] theorem State.modDie_pow (d : DieId) (g : Die → Die) : (s.modDie d g).pow = s.pow := State.setDie_pow s d _
@[simp] theorem State.setDie_bays (d : DieId) (y : Die) : (s.setDie d y).bays = s.bays := by
  match d with | 0 => rfl | 1 => rfl | 2 => rfl | 3 => rfl
@[simp] theorem State.modDie_bays (d : DieId) (g : Die → Die) : (s.modDie d g).bays = s.bays := State.setDie_bays s d _
@[simp] theorem State.setDie_elect (d : DieId) (y : Die) : (s.setDie d y).elect = s.elect := by
  match d with | 0 => rfl | 1 => rfl | 2 => rfl | 3 => rfl
@[simp] theorem State.modDie_elect (d : DieId) (g : Die → Die) : (s.modDie d g).elect = s.elect := State.setDie_elect s d _
@[simp] theorem State.setDie_notes (d : DieId) (y : Die) : (s.setDie d y).notes = s.notes := by
  match d with | 0 => rfl | 1 => rfl | 2 => rfl | 3 => rfl
@[simp] theorem State.modDie_notes (d : DieId) (g : Die → Die) : (s.modDie d g).notes = s.notes := State.setDie_notes s d _
@[simp] theorem State.setDie_sweeps (d : DieId) (y : Die) : (s.setDie d y).sweeps = s.sweeps := by
  match d with | 0 => rfl | 1 => rfl | 2 => rfl | 3 => rfl
@[simp] theorem State.modDie_sweeps (d : DieId) (g : Die → Die) : (s.modDie d g).sweeps = s.sweeps := State.setDie_sweeps s d _
@[simp] theorem State.setDie_trace (d : DieId) (y : Die) : (s.setDie d y).trace = s.trace := by
  match d with | 0 => rfl | 1 => rfl | 2 => rfl | 3 => rfl
@[simp] theorem State.modDie_trace (d : DieId) (g : Die → Die) : (s.modDie d g).trace = s.trace := State.setDie_trace s d _
@[simp] theorem State.setDie_out (d : DieId) (y : Die) : (s.setDie d y).out = s.out := by
  match d with | 0 => rfl | 1 => rfl | 2 => rfl | 3 => rfl
@[simp] theorem State.modDie_out (d : DieId) (g : Die → Die) : (s.modDie d g).out = s.out := State.setDie_out s d _
@[simp] theorem State.setDie_free (d : DieId) (y : Die) : (s.setDie d y).free = s.free := by
  match d with | 0 => rfl | 1 => rfl | 2 => rfl | 3 => rfl
@[simp] theorem State.modDie_free (d : DieId) (g : Die → Die) : (s.modDie d g).free = s.free := State.setDie_free s d _
@[simp] theorem State.setDie_pending (d : DieId) (y : Die) : (s.setDie d y).pending = s.pending := by
  match d with | 0 => rfl | 1 => rfl | 2 => rfl | 3 => rfl
@[simp] theorem State.modDie_pending (d : DieId) (g : Die → Die) : (s.modDie d g).pending = s.pending := State.setDie_pending s d _

/-! ### What leaves the tray, and FC4 counters -/

@[simp] theorem State.emit_q0 (o : Out) : (s.emit o).q0 = s.q0 := rfl
@[simp] theorem State.fresh_q0 : s.fresh.q0 = s.q0 := rfl
@[simp] theorem State.emit_q1 (o : Out) : (s.emit o).q1 = s.q1 := rfl
@[simp] theorem State.fresh_q1 : s.fresh.q1 = s.q1 := rfl
@[simp] theorem State.emit_q2 (o : Out) : (s.emit o).q2 = s.q2 := rfl
@[simp] theorem State.fresh_q2 : s.fresh.q2 = s.q2 := rfl
@[simp] theorem State.emit_q3 (o : Out) : (s.emit o).q3 = s.q3 := rfl
@[simp] theorem State.fresh_q3 : s.fresh.q3 = s.q3 := rfl
@[simp] theorem State.emit_boot (o : Out) : (s.emit o).boot = s.boot := rfl
@[simp] theorem State.fresh_boot : s.fresh.boot = s.boot := rfl
@[simp] theorem State.emit_tok (o : Out) : (s.emit o).tok = s.tok := rfl
@[simp] theorem State.fresh_tok : s.fresh.tok = s.tok := rfl
@[simp] theorem State.emit_mbx (o : Out) : (s.emit o).mbx = s.mbx := rfl
@[simp] theorem State.fresh_mbx : s.fresh.mbx = s.mbx := rfl
@[simp] theorem State.emit_evs (o : Out) : (s.emit o).evs = s.evs := rfl
@[simp] theorem State.fresh_evs : s.fresh.evs = s.evs := rfl
@[simp] theorem State.emit_fuse (o : Out) : (s.emit o).fuse = s.fuse := rfl
@[simp] theorem State.fresh_fuse : s.fresh.fuse = s.fuse := rfl
@[simp] theorem State.emit_fw (o : Out) : (s.emit o).fw = s.fw := rfl
@[simp] theorem State.fresh_fw : s.fresh.fw = s.fw := rfl
@[simp] theorem State.emit_mspA (o : Out) : (s.emit o).mspA = s.mspA := rfl
@[simp] theorem State.fresh_mspA : s.fresh.mspA = s.mspA := rfl
@[simp] theorem State.emit_mspB (o : Out) : (s.emit o).mspB = s.mspB := rfl
@[simp] theorem State.fresh_mspB : s.fresh.mspB = s.mspB := rfl
@[simp] theorem State.emit_pow (o : Out) : (s.emit o).pow = s.pow := rfl
@[simp] theorem State.fresh_pow : s.fresh.pow = s.pow := rfl
@[simp] theorem State.emit_bays (o : Out) : (s.emit o).bays = s.bays := rfl
@[simp] theorem State.fresh_bays : s.fresh.bays = s.bays := rfl
@[simp] theorem State.emit_elect (o : Out) : (s.emit o).elect = s.elect := rfl
@[simp] theorem State.fresh_elect : s.fresh.elect = s.elect := rfl
@[simp] theorem State.emit_notes (o : Out) : (s.emit o).notes = s.notes := rfl
@[simp] theorem State.fresh_notes : s.fresh.notes = s.notes := rfl
@[simp] theorem State.emit_sweeps (o : Out) : (s.emit o).sweeps = s.sweeps := rfl
@[simp] theorem State.fresh_sweeps : s.fresh.sweeps = s.sweeps := rfl
@[simp] theorem State.emit_trace (o : Out) : (s.emit o).trace = s.trace := rfl
@[simp] theorem State.fresh_trace : s.fresh.trace = s.trace := rfl
@[simp] theorem State.emit_free (o : Out) : (s.emit o).free = s.free := rfl
@[simp] theorem State.fresh_free : s.fresh.free = s.free := rfl
@[simp] theorem State.emit_pending (o : Out) : (s.emit o).pending = s.pending := rfl
@[simp] theorem State.fresh_pending : s.fresh.pending = s.pending := rfl
@[simp] theorem State.emit_out (o : Out) : (s.emit o).out = s.out ++ [o] := rfl
@[simp] theorem State.fresh_out : s.fresh.out = [] := rfl
@[simp] theorem State.emit_die (o : Out) (d : DieId) : (s.emit o).die d = s.die d := by
  match d with | 0 => rfl | 1 => rfl | 2 => rfl | 3 => rfl
@[simp] theorem State.fresh_die (d : DieId) : s.fresh.die d = s.die d := by
  match d with | 0 => rfl | 1 => rfl | 2 => rfl | 3 => rfl
@[simp] theorem State.fresh_fresh : s.fresh.fresh = s.fresh := rfl
@[simp] theorem State.countFc_q0 (k n : Nat) : (s.countFc k n).q0 = s.q0 := rfl
@[simp] theorem State.modCore_q0 (c : Nat) (g : TraceCore → TraceCore) : (s.modCore c g).q0 = s.q0 := rfl
@[simp] theorem State.countFc_q1 (k n : Nat) : (s.countFc k n).q1 = s.q1 := rfl
@[simp] theorem State.modCore_q1 (c : Nat) (g : TraceCore → TraceCore) : (s.modCore c g).q1 = s.q1 := rfl
@[simp] theorem State.countFc_q2 (k n : Nat) : (s.countFc k n).q2 = s.q2 := rfl
@[simp] theorem State.modCore_q2 (c : Nat) (g : TraceCore → TraceCore) : (s.modCore c g).q2 = s.q2 := rfl
@[simp] theorem State.countFc_q3 (k n : Nat) : (s.countFc k n).q3 = s.q3 := rfl
@[simp] theorem State.modCore_q3 (c : Nat) (g : TraceCore → TraceCore) : (s.modCore c g).q3 = s.q3 := rfl
@[simp] theorem State.countFc_boot (k n : Nat) : (s.countFc k n).boot = s.boot := rfl
@[simp] theorem State.modCore_boot (c : Nat) (g : TraceCore → TraceCore) : (s.modCore c g).boot = s.boot := rfl
@[simp] theorem State.countFc_tok (k n : Nat) : (s.countFc k n).tok = s.tok := rfl
@[simp] theorem State.modCore_tok (c : Nat) (g : TraceCore → TraceCore) : (s.modCore c g).tok = s.tok := rfl
@[simp] theorem State.modCore_mbx (c : Nat) (g : TraceCore → TraceCore) : (s.modCore c g).mbx = s.mbx := rfl
@[simp] theorem State.countFc_evs (k n : Nat) : (s.countFc k n).evs = s.evs := rfl
@[simp] theorem State.modCore_evs (c : Nat) (g : TraceCore → TraceCore) : (s.modCore c g).evs = s.evs := rfl
@[simp] theorem State.countFc_fuse (k n : Nat) : (s.countFc k n).fuse = s.fuse := rfl
@[simp] theorem State.modCore_fuse (c : Nat) (g : TraceCore → TraceCore) : (s.modCore c g).fuse = s.fuse := rfl
@[simp] theorem State.countFc_fw (k n : Nat) : (s.countFc k n).fw = s.fw := rfl
@[simp] theorem State.modCore_fw (c : Nat) (g : TraceCore → TraceCore) : (s.modCore c g).fw = s.fw := rfl
@[simp] theorem State.countFc_mspA (k n : Nat) : (s.countFc k n).mspA = s.mspA := rfl
@[simp] theorem State.modCore_mspA (c : Nat) (g : TraceCore → TraceCore) : (s.modCore c g).mspA = s.mspA := rfl
@[simp] theorem State.countFc_mspB (k n : Nat) : (s.countFc k n).mspB = s.mspB := rfl
@[simp] theorem State.modCore_mspB (c : Nat) (g : TraceCore → TraceCore) : (s.modCore c g).mspB = s.mspB := rfl
@[simp] theorem State.countFc_pow (k n : Nat) : (s.countFc k n).pow = s.pow := rfl
@[simp] theorem State.modCore_pow (c : Nat) (g : TraceCore → TraceCore) : (s.modCore c g).pow = s.pow := rfl
@[simp] theorem State.countFc_bays (k n : Nat) : (s.countFc k n).bays = s.bays := rfl
@[simp] theorem State.modCore_bays (c : Nat) (g : TraceCore → TraceCore) : (s.modCore c g).bays = s.bays := rfl
@[simp] theorem State.countFc_elect (k n : Nat) : (s.countFc k n).elect = s.elect := rfl
@[simp] theorem State.modCore_elect (c : Nat) (g : TraceCore → TraceCore) : (s.modCore c g).elect = s.elect := rfl
@[simp] theorem State.countFc_notes (k n : Nat) : (s.countFc k n).notes = s.notes := rfl
@[simp] theorem State.modCore_notes (c : Nat) (g : TraceCore → TraceCore) : (s.modCore c g).notes = s.notes := rfl
@[simp] theorem State.countFc_sweeps (k n : Nat) : (s.countFc k n).sweeps = s.sweeps := rfl
@[simp] theorem State.modCore_sweeps (c : Nat) (g : TraceCore → TraceCore) : (s.modCore c g).sweeps = s.sweeps := rfl
@[simp] theorem State.countFc_trace (k n : Nat) : (s.countFc k n).trace = s.trace := rfl
@[simp] theorem State.countFc_out (k n : Nat) : (s.countFc k n).out = s.out := rfl
@[simp] theorem State.modCore_out (c : Nat) (g : TraceCore → TraceCore) : (s.modCore c g).out = s.out := rfl
@[simp] theorem State.countFc_free (k n : Nat) : (s.countFc k n).free = s.free := rfl
@[simp] theorem State.modCore_free (c : Nat) (g : TraceCore → TraceCore) : (s.modCore c g).free = s.free := rfl
@[simp] theorem State.countFc_pending (k n : Nat) : (s.countFc k n).pending = s.pending := rfl
@[simp] theorem State.modCore_pending (c : Nat) (g : TraceCore → TraceCore) : (s.modCore c g).pending = s.pending := rfl
@[simp] theorem State.countFc_die (k n : Nat) (d : DieId) : (s.countFc k n).die d = s.die d := by
  match d with | 0 => rfl | 1 => rfl | 2 => rfl | 3 => rfl
@[simp] theorem State.modCore_die (c : Nat) (g : TraceCore → TraceCore) (d : DieId) : (s.modCore c g).die d = s.die d := by
  match d with | 0 => rfl | 1 => rfl | 2 => rfl | 3 => rfl

/-! ### Sending on a link, and through port 70 -/

@[simp] theorem State.toLink_q0 (c : Channel) (a : BitVec 144) (n : Nat) : (s.toLink c a n).q0 = s.q0 := rfl
@[simp] theorem State.toLink_q1 (c : Channel) (a : BitVec 144) (n : Nat) : (s.toLink c a n).q1 = s.q1 := rfl
@[simp] theorem State.toLink_q2 (c : Channel) (a : BitVec 144) (n : Nat) : (s.toLink c a n).q2 = s.q2 := rfl
@[simp] theorem State.toLink_q3 (c : Channel) (a : BitVec 144) (n : Nat) : (s.toLink c a n).q3 = s.q3 := rfl
@[simp] theorem State.toLink_boot (c : Channel) (a : BitVec 144) (n : Nat) : (s.toLink c a n).boot = s.boot := rfl
@[simp] theorem State.toLink_tok (c : Channel) (a : BitVec 144) (n : Nat) : (s.toLink c a n).tok = s.tok := rfl
@[simp] theorem State.toLink_mbx (c : Channel) (a : BitVec 144) (n : Nat) : (s.toLink c a n).mbx = s.mbx := rfl
@[simp] theorem State.toLink_evs (c : Channel) (a : BitVec 144) (n : Nat) : (s.toLink c a n).evs = s.evs := rfl
@[simp] theorem State.toLink_fuse (c : Channel) (a : BitVec 144) (n : Nat) : (s.toLink c a n).fuse = s.fuse := rfl
@[simp] theorem State.toLink_fw (c : Channel) (a : BitVec 144) (n : Nat) : (s.toLink c a n).fw = s.fw := rfl
@[simp] theorem State.toLink_mspA (c : Channel) (a : BitVec 144) (n : Nat) : (s.toLink c a n).mspA = s.mspA := rfl
@[simp] theorem State.toLink_mspB (c : Channel) (a : BitVec 144) (n : Nat) : (s.toLink c a n).mspB = s.mspB := rfl
@[simp] theorem State.toLink_pow (c : Channel) (a : BitVec 144) (n : Nat) : (s.toLink c a n).pow = s.pow := rfl
@[simp] theorem State.toLink_bays (c : Channel) (a : BitVec 144) (n : Nat) : (s.toLink c a n).bays = s.bays := rfl
@[simp] theorem State.toLink_elect (c : Channel) (a : BitVec 144) (n : Nat) : (s.toLink c a n).elect = s.elect := rfl
@[simp] theorem State.toLink_notes (c : Channel) (a : BitVec 144) (n : Nat) : (s.toLink c a n).notes = s.notes := rfl
@[simp] theorem State.toLink_sweeps (c : Channel) (a : BitVec 144) (n : Nat) : (s.toLink c a n).sweeps = s.sweeps := rfl
@[simp] theorem State.toLink_trace (c : Channel) (a : BitVec 144) (n : Nat) : (s.toLink c a n).trace = s.trace := rfl
@[simp] theorem State.toLink_free (c : Channel) (a : BitVec 144) (n : Nat) : (s.toLink c a n).free = s.free := rfl
@[simp] theorem State.toLink_pending (c : Channel) (a : BitVec 144) (n : Nat) : (s.toLink c a n).pending = s.pending := rfl
@[simp] theorem State.toLink_out (c : Channel) (a : BitVec 144) (n : Nat) : (s.toLink c a n).out = s.out ++ linkOut c a n := rfl
@[simp] theorem State.toLink_die (c : Channel) (a : BitVec 144) (n : Nat) (d : DieId) : (s.toLink c a n).die d = s.die d := by
  match d with | 0 => rfl | 1 => rfl | 2 => rfl | 3 => rfl
@[simp] theorem State.mail_q0 (m : Mail) : (s.mail m).q0 = s.q0 := rfl
@[simp] theorem State.mail_q1 (m : Mail) : (s.mail m).q1 = s.q1 := rfl
@[simp] theorem State.mail_q2 (m : Mail) : (s.mail m).q2 = s.q2 := rfl
@[simp] theorem State.mail_q3 (m : Mail) : (s.mail m).q3 = s.q3 := rfl
@[simp] theorem State.mail_boot (m : Mail) : (s.mail m).boot = s.boot := rfl
@[simp] theorem State.mail_tok (m : Mail) : (s.mail m).tok = s.tok := rfl
@[simp] theorem State.mail_evs (m : Mail) : (s.mail m).evs = s.evs := rfl
@[simp] theorem State.mail_fuse (m : Mail) : (s.mail m).fuse = s.fuse := rfl
@[simp] theorem State.mail_fw (m : Mail) : (s.mail m).fw = s.fw := rfl
@[simp] theorem State.mail_mspA (m : Mail) : (s.mail m).mspA = s.mspA := rfl
@[simp] theorem State.mail_mspB (m : Mail) : (s.mail m).mspB = s.mspB := rfl
@[simp] theorem State.mail_pow (m : Mail) : (s.mail m).pow = s.pow := rfl
@[simp] theorem State.mail_bays (m : Mail) : (s.mail m).bays = s.bays := rfl
@[simp] theorem State.mail_elect (m : Mail) : (s.mail m).elect = s.elect := rfl
@[simp] theorem State.mail_notes (m : Mail) : (s.mail m).notes = s.notes := rfl
@[simp] theorem State.mail_sweeps (m : Mail) : (s.mail m).sweeps = s.sweeps := rfl
@[simp] theorem State.mail_trace (m : Mail) : (s.mail m).trace = s.trace := rfl
@[simp] theorem State.mail_out (m : Mail) : (s.mail m).out = s.out := rfl
@[simp] theorem State.mail_free (m : Mail) : (s.mail m).free = s.free := rfl
@[simp] theorem State.mail_pending (m : Mail) : (s.mail m).pending = s.pending := rfl
@[simp] theorem State.mail_mbx (m : Mail) : (s.mail m).mbx = { s.mbx with outbox := s.mbx.outbox ++ [m] } := rfl
@[simp] theorem State.mail_die (m : Mail) (d : DieId) : (s.mail m).die d = s.die d := by
  match d with | 0 => rfl | 1 => rfl | 2 => rfl | 3 => rfl
@[simp] theorem State.mailBack_q0 (g : Frame) (op : Nat) (st : Status) (p : List Byte) : (s.mailBack g op st p).q0 = s.q0 := by
  unfold State.mailBack; split <;> rfl
@[simp] theorem State.mailBack_q1 (g : Frame) (op : Nat) (st : Status) (p : List Byte) : (s.mailBack g op st p).q1 = s.q1 := by
  unfold State.mailBack; split <;> rfl
@[simp] theorem State.mailBack_q2 (g : Frame) (op : Nat) (st : Status) (p : List Byte) : (s.mailBack g op st p).q2 = s.q2 := by
  unfold State.mailBack; split <;> rfl
@[simp] theorem State.mailBack_q3 (g : Frame) (op : Nat) (st : Status) (p : List Byte) : (s.mailBack g op st p).q3 = s.q3 := by
  unfold State.mailBack; split <;> rfl
@[simp] theorem State.mailBack_boot (g : Frame) (op : Nat) (st : Status) (p : List Byte) : (s.mailBack g op st p).boot = s.boot := by
  unfold State.mailBack; split <;> rfl
@[simp] theorem State.mailBack_tok (g : Frame) (op : Nat) (st : Status) (p : List Byte) : (s.mailBack g op st p).tok = s.tok := by
  unfold State.mailBack; split <;> rfl
@[simp] theorem State.mailBack_evs (g : Frame) (op : Nat) (st : Status) (p : List Byte) : (s.mailBack g op st p).evs = s.evs := by
  unfold State.mailBack; split <;> rfl
@[simp] theorem State.mailBack_fuse (g : Frame) (op : Nat) (st : Status) (p : List Byte) : (s.mailBack g op st p).fuse = s.fuse := by
  unfold State.mailBack; split <;> rfl
@[simp] theorem State.mailBack_fw (g : Frame) (op : Nat) (st : Status) (p : List Byte) : (s.mailBack g op st p).fw = s.fw := by
  unfold State.mailBack; split <;> rfl
@[simp] theorem State.mailBack_mspA (g : Frame) (op : Nat) (st : Status) (p : List Byte) : (s.mailBack g op st p).mspA = s.mspA := by
  unfold State.mailBack; split <;> rfl
@[simp] theorem State.mailBack_mspB (g : Frame) (op : Nat) (st : Status) (p : List Byte) : (s.mailBack g op st p).mspB = s.mspB := by
  unfold State.mailBack; split <;> rfl
@[simp] theorem State.mailBack_pow (g : Frame) (op : Nat) (st : Status) (p : List Byte) : (s.mailBack g op st p).pow = s.pow := by
  unfold State.mailBack; split <;> rfl
@[simp] theorem State.mailBack_bays (g : Frame) (op : Nat) (st : Status) (p : List Byte) : (s.mailBack g op st p).bays = s.bays := by
  unfold State.mailBack; split <;> rfl
@[simp] theorem State.mailBack_elect (g : Frame) (op : Nat) (st : Status) (p : List Byte) : (s.mailBack g op st p).elect = s.elect := by
  unfold State.mailBack; split <;> rfl
@[simp] theorem State.mailBack_notes (g : Frame) (op : Nat) (st : Status) (p : List Byte) : (s.mailBack g op st p).notes = s.notes := by
  unfold State.mailBack; split <;> rfl
@[simp] theorem State.mailBack_sweeps (g : Frame) (op : Nat) (st : Status) (p : List Byte) : (s.mailBack g op st p).sweeps = s.sweeps := by
  unfold State.mailBack; split <;> rfl
@[simp] theorem State.mailBack_trace (g : Frame) (op : Nat) (st : Status) (p : List Byte) : (s.mailBack g op st p).trace = s.trace := by
  unfold State.mailBack; split <;> rfl
@[simp] theorem State.mailBack_out (g : Frame) (op : Nat) (st : Status) (p : List Byte) : (s.mailBack g op st p).out = s.out := by
  unfold State.mailBack; split <;> rfl
@[simp] theorem State.mailBack_free (g : Frame) (op : Nat) (st : Status) (p : List Byte) : (s.mailBack g op st p).free = s.free := by
  unfold State.mailBack; split <;> rfl
@[simp] theorem State.mailBack_pending (g : Frame) (op : Nat) (st : Status) (p : List Byte) : (s.mailBack g op st p).pending = s.pending := by
  unfold State.mailBack; split <;> rfl
@[simp] theorem State.mailBack_slots (g : Frame) (op : Nat) (st : Status) (p : List Byte) :
    (s.mailBack g op st p).mbx.slots = s.mbx.slots := by
  unfold State.mailBack; split <;> rfl


/-! ### A die -/

@[simp] theorem Die.port_modPort (p : Nat) (f : Port → Port) : (x.modPort p f).port p = f (x.port p) := by
  simp [Die.modPort, Die.port]

theorem Die.port_modPort_ne {p q : Nat} (f : Port → Port) (h : q ≠ p) : (x.modPort p f).port q = x.port q := by
  simp [Die.modPort, Die.port, Map.lookD_put_ne _ _ _ h]

@[simp] theorem Die.modPort_core (p : Nat) (g : Port → Port) : (x.modPort p g).core = x.core := rfl
@[simp] theorem Die.count_core (k n : Nat) : (x.count k n).core = x.core := rfl
@[simp] theorem Die.modTab_core (g : Tables → Tables) : (x.modTab g).core = x.core := rfl
@[simp] theorem Die.modBoth_core (g : Tables → Tables) : (x.modBoth g).core = x.core := rfl
@[simp] theorem Die.modPort_now (p : Nat) (g : Port → Port) : (x.modPort p g).now = x.now := rfl
@[simp] theorem Die.count_now (k n : Nat) : (x.count k n).now = x.now := rfl
@[simp] theorem Die.modTab_now (g : Tables → Tables) : (x.modTab g).now = x.now := rfl
@[simp] theorem Die.modBoth_now (g : Tables → Tables) : (x.modBoth g).now = x.now := rfl
@[simp] theorem Die.modPort_tick (p : Nat) (g : Port → Port) : (x.modPort p g).tick = x.tick := rfl
@[simp] theorem Die.count_tick (k n : Nat) : (x.count k n).tick = x.tick := rfl
@[simp] theorem Die.modTab_tick (g : Tables → Tables) : (x.modTab g).tick = x.tick := rfl
@[simp] theorem Die.modBoth_tick (g : Tables → Tables) : (x.modBoth g).tick = x.tick := rfl
@[simp] theorem Die.modPort_full (p : Nat) (g : Port → Port) : (x.modPort p g).full = x.full := rfl
@[simp] theorem Die.count_full (k n : Nat) : (x.count k n).full = x.full := rfl
@[simp] theorem Die.modTab_full (g : Tables → Tables) : (x.modTab g).full = x.full := rfl
@[simp] theorem Die.modBoth_full (g : Tables → Tables) : (x.modBoth g).full = x.full := rfl
@[simp] theorem Die.modPort_unbound (p : Nat) (g : Port → Port) : (x.modPort p g).unbound = x.unbound := rfl
@[simp] theorem Die.count_unbound (k n : Nat) : (x.count k n).unbound = x.unbound := rfl
@[simp] theorem Die.modTab_unbound (g : Tables → Tables) : (x.modTab g).unbound = x.unbound := rfl
@[simp] theorem Die.modBoth_unbound (g : Tables → Tables) : (x.modBoth g).unbound = x.unbound := rfl
@[simp] theorem Die.modPort_view (p : Nat) (g : Port → Port) : (x.modPort p g).view = x.view := rfl
@[simp] theorem Die.count_view (k n : Nat) : (x.count k n).view = x.view := rfl
@[simp] theorem Die.modTab_view (g : Tables → Tables) : (x.modTab g).view = x.view := rfl
@[simp] theorem Die.modPort_tab (p : Nat) (g : Port → Port) : (x.modPort p g).tab = x.tab := rfl
@[simp] theorem Die.count_tab (k n : Nat) : (x.count k n).tab = x.tab := rfl
@[simp] theorem Die.modPort_cleared (p : Nat) (g : Port → Port) : (x.modPort p g).cleared = x.cleared := rfl
@[simp] theorem Die.count_cleared (k n : Nat) : (x.count k n).cleared = x.cleared := rfl
@[simp] theorem Die.modTab_cleared (g : Tables → Tables) : (x.modTab g).cleared = x.cleared := rfl
@[simp] theorem Die.modBoth_cleared (g : Tables → Tables) : (x.modBoth g).cleared = x.cleared := rfl
@[simp] theorem Die.modPort_usable (p : Nat) (g : Port → Port) : (x.modPort p g).usable = x.usable := rfl
@[simp] theorem Die.count_usable (k n : Nat) : (x.count k n).usable = x.usable := rfl
@[simp] theorem Die.modTab_usable (g : Tables → Tables) : (x.modTab g).usable = x.usable := rfl
@[simp] theorem Die.modBoth_usable (g : Tables → Tables) : (x.modBoth g).usable = x.usable := rfl
@[simp] theorem Die.count_ports (k n : Nat) : (x.count k n).ports = x.ports := rfl
@[simp] theorem Die.modTab_ports (g : Tables → Tables) : (x.modTab g).ports = x.ports := rfl
@[simp] theorem Die.modBoth_ports (g : Tables → Tables) : (x.modBoth g).ports = x.ports := rfl
@[simp] theorem Die.modPort_held (p : Nat) (g : Port → Port) : (x.modPort p g).held = x.held := rfl
@[simp] theorem Die.count_held (k n : Nat) : (x.count k n).held = x.held := rfl
@[simp] theorem Die.modTab_held (g : Tables → Tables) : (x.modTab g).held = x.held := rfl
@[simp] theorem Die.modBoth_held (g : Tables → Tables) : (x.modBoth g).held = x.held := rfl
@[simp] theorem Die.modPort_nextId (p : Nat) (g : Port → Port) : (x.modPort p g).nextId = x.nextId := rfl
@[simp] theorem Die.count_nextId (k n : Nat) : (x.count k n).nextId = x.nextId := rfl
@[simp] theorem Die.modTab_nextId (g : Tables → Tables) : (x.modTab g).nextId = x.nextId := rfl
@[simp] theorem Die.modBoth_nextId (g : Tables → Tables) : (x.modBoth g).nextId = x.nextId := rfl
@[simp] theorem Die.modPort_spraySeq (p : Nat) (g : Port → Port) : (x.modPort p g).spraySeq = x.spraySeq := rfl
@[simp] theorem Die.count_spraySeq (k n : Nat) : (x.count k n).spraySeq = x.spraySeq := rfl
@[simp] theorem Die.modTab_spraySeq (g : Tables → Tables) : (x.modTab g).spraySeq = x.spraySeq := rfl
@[simp] theorem Die.modBoth_spraySeq (g : Tables → Tables) : (x.modBoth g).spraySeq = x.spraySeq := rfl
@[simp] theorem Die.modPort_pins (p : Nat) (g : Port → Port) : (x.modPort p g).pins = x.pins := rfl
@[simp] theorem Die.count_pins (k n : Nat) : (x.count k n).pins = x.pins := rfl
@[simp] theorem Die.modTab_pins (g : Tables → Tables) : (x.modTab g).pins = x.pins := rfl
@[simp] theorem Die.modBoth_pins (g : Tables → Tables) : (x.modBoth g).pins = x.pins := rfl
@[simp] theorem Die.modPort_sprayRx (p : Nat) (g : Port → Port) : (x.modPort p g).sprayRx = x.sprayRx := rfl
@[simp] theorem Die.count_sprayRx (k n : Nat) : (x.count k n).sprayRx = x.sprayRx := rfl
@[simp] theorem Die.modTab_sprayRx (g : Tables → Tables) : (x.modTab g).sprayRx = x.sprayRx := rfl
@[simp] theorem Die.modBoth_sprayRx (g : Tables → Tables) : (x.modBoth g).sprayRx = x.sprayRx := rfl
@[simp] theorem Die.modPort_order (p : Nat) (g : Port → Port) : (x.modPort p g).order = x.order := rfl
@[simp] theorem Die.count_order (k n : Nat) : (x.count k n).order = x.order := rfl
@[simp] theorem Die.modTab_order (g : Tables → Tables) : (x.modTab g).order = x.order := rfl
@[simp] theorem Die.modBoth_order (g : Tables → Tables) : (x.modBoth g).order = x.order := rfl
@[simp] theorem Die.modPort_lastPort (p : Nat) (g : Port → Port) : (x.modPort p g).lastPort = x.lastPort := rfl
@[simp] theorem Die.count_lastPort (k n : Nat) : (x.count k n).lastPort = x.lastPort := rfl
@[simp] theorem Die.modTab_lastPort (g : Tables → Tables) : (x.modTab g).lastPort = x.lastPort := rfl
@[simp] theorem Die.modBoth_lastPort (g : Tables → Tables) : (x.modBoth g).lastPort = x.lastPort := rfl
@[simp] theorem Die.modPort_segJobs (p : Nat) (g : Port → Port) : (x.modPort p g).segJobs = x.segJobs := rfl
@[simp] theorem Die.count_segJobs (k n : Nat) : (x.count k n).segJobs = x.segJobs := rfl
@[simp] theorem Die.modTab_segJobs (g : Tables → Tables) : (x.modTab g).segJobs = x.segJobs := rfl
@[simp] theorem Die.modBoth_segJobs (g : Tables → Tables) : (x.modBoth g).segJobs = x.segJobs := rfl
@[simp] theorem Die.modPort_potJobs (p : Nat) (g : Port → Port) : (x.modPort p g).potJobs = x.potJobs := rfl
@[simp] theorem Die.count_potJobs (k n : Nat) : (x.count k n).potJobs = x.potJobs := rfl
@[simp] theorem Die.modTab_potJobs (g : Tables → Tables) : (x.modTab g).potJobs = x.potJobs := rfl
@[simp] theorem Die.modBoth_potJobs (g : Tables → Tables) : (x.modBoth g).potJobs = x.potJobs := rfl
@[simp] theorem Die.modPort_pots (p : Nat) (g : Port → Port) : (x.modPort p g).pots = x.pots := rfl
@[simp] theorem Die.count_pots (k n : Nat) : (x.count k n).pots = x.pots := rfl
@[simp] theorem Die.modTab_pots (g : Tables → Tables) : (x.modTab g).pots = x.pots := rfl
@[simp] theorem Die.modBoth_pots (g : Tables → Tables) : (x.modBoth g).pots = x.pots := rfl
@[simp] theorem Die.modPort_pours (p : Nat) (g : Port → Port) : (x.modPort p g).pours = x.pours := rfl
@[simp] theorem Die.count_pours (k n : Nat) : (x.count k n).pours = x.pours := rfl
@[simp] theorem Die.modTab_pours (g : Tables → Tables) : (x.modTab g).pours = x.pours := rfl
@[simp] theorem Die.modBoth_pours (g : Tables → Tables) : (x.modBoth g).pours = x.pours := rfl
@[simp] theorem Die.modPort_aborts (p : Nat) (g : Port → Port) : (x.modPort p g).aborts = x.aborts := rfl
@[simp] theorem Die.count_aborts (k n : Nat) : (x.count k n).aborts = x.aborts := rfl
@[simp] theorem Die.modTab_aborts (g : Tables → Tables) : (x.modTab g).aborts = x.aborts := rfl
@[simp] theorem Die.modBoth_aborts (g : Tables → Tables) : (x.modBoth g).aborts = x.aborts := rfl
@[simp] theorem Die.modPort_lastAbort (p : Nat) (g : Port → Port) : (x.modPort p g).lastAbort = x.lastAbort := rfl
@[simp] theorem Die.count_lastAbort (k n : Nat) : (x.count k n).lastAbort = x.lastAbort := rfl
@[simp] theorem Die.modTab_lastAbort (g : Tables → Tables) : (x.modTab g).lastAbort = x.lastAbort := rfl
@[simp] theorem Die.modBoth_lastAbort (g : Tables → Tables) : (x.modBoth g).lastAbort = x.lastAbort := rfl
@[simp] theorem Die.modPort_relays (p : Nat) (g : Port → Port) : (x.modPort p g).relays = x.relays := rfl
@[simp] theorem Die.count_relays (k n : Nat) : (x.count k n).relays = x.relays := rfl
@[simp] theorem Die.modTab_relays (g : Tables → Tables) : (x.modTab g).relays = x.relays := rfl
@[simp] theorem Die.modBoth_relays (g : Tables → Tables) : (x.modBoth g).relays = x.relays := rfl
@[simp] theorem Die.modPort_relayUps (p : Nat) (g : Port → Port) : (x.modPort p g).relayUps = x.relayUps := rfl
@[simp] theorem Die.count_relayUps (k n : Nat) : (x.count k n).relayUps = x.relayUps := rfl
@[simp] theorem Die.modTab_relayUps (g : Tables → Tables) : (x.modTab g).relayUps = x.relayUps := rfl
@[simp] theorem Die.modBoth_relayUps (g : Tables → Tables) : (x.modBoth g).relayUps = x.relayUps := rfl
@[simp] theorem Die.modPort_relayDowns (p : Nat) (g : Port → Port) : (x.modPort p g).relayDowns = x.relayDowns := rfl
@[simp] theorem Die.count_relayDowns (k n : Nat) : (x.count k n).relayDowns = x.relayDowns := rfl
@[simp] theorem Die.modTab_relayDowns (g : Tables → Tables) : (x.modTab g).relayDowns = x.relayDowns := rfl
@[simp] theorem Die.modBoth_relayDowns (g : Tables → Tables) : (x.modBoth g).relayDowns = x.relayDowns := rfl
@[simp] theorem Die.modPort_collNext (p : Nat) (g : Port → Port) : (x.modPort p g).collNext = x.collNext := rfl
@[simp] theorem Die.count_collNext (k n : Nat) : (x.count k n).collNext = x.collNext := rfl
@[simp] theorem Die.modTab_collNext (g : Tables → Tables) : (x.modTab g).collNext = x.collNext := rfl
@[simp] theorem Die.modBoth_collNext (g : Tables → Tables) : (x.modBoth g).collNext = x.collNext := rfl
@[simp] theorem Die.modPort_idleFrom (p : Nat) (g : Port → Port) : (x.modPort p g).idleFrom = x.idleFrom := rfl
@[simp] theorem Die.count_idleFrom (k n : Nat) : (x.count k n).idleFrom = x.idleFrom := rfl
@[simp] theorem Die.modTab_idleFrom (g : Tables → Tables) : (x.modTab g).idleFrom = x.idleFrom := rfl
@[simp] theorem Die.modBoth_idleFrom (g : Tables → Tables) : (x.modBoth g).idleFrom = x.idleFrom := rfl
@[simp] theorem Die.modPort_drained (p : Nat) (g : Port → Port) : (x.modPort p g).drained = x.drained := rfl
@[simp] theorem Die.count_drained (k n : Nat) : (x.count k n).drained = x.drained := rfl
@[simp] theorem Die.modTab_drained (g : Tables → Tables) : (x.modTab g).drained = x.drained := rfl
@[simp] theorem Die.modBoth_drained (g : Tables → Tables) : (x.modBoth g).drained = x.drained := rfl
@[simp] theorem Die.modPort_xonNext (p : Nat) (g : Port → Port) : (x.modPort p g).xonNext = x.xonNext := rfl
@[simp] theorem Die.count_xonNext (k n : Nat) : (x.count k n).xonNext = x.xonNext := rfl
@[simp] theorem Die.modTab_xonNext (g : Tables → Tables) : (x.modTab g).xonNext = x.xonNext := rfl
@[simp] theorem Die.modBoth_xonNext (g : Tables → Tables) : (x.modBoth g).xonNext = x.xonNext := rfl
@[simp] theorem Die.modPort_quotaShort (p : Nat) (g : Port → Port) : (x.modPort p g).quotaShort = x.quotaShort := rfl
@[simp] theorem Die.count_quotaShort (k n : Nat) : (x.count k n).quotaShort = x.quotaShort := rfl
@[simp] theorem Die.modTab_quotaShort (g : Tables → Tables) : (x.modTab g).quotaShort = x.quotaShort := rfl
@[simp] theorem Die.modBoth_quotaShort (g : Tables → Tables) : (x.modBoth g).quotaShort = x.quotaShort := rfl
@[simp] theorem Die.modPort_throttled (p : Nat) (g : Port → Port) : (x.modPort p g).throttled = x.throttled := rfl
@[simp] theorem Die.count_throttled (k n : Nat) : (x.count k n).throttled = x.throttled := rfl
@[simp] theorem Die.modTab_throttled (g : Tables → Tables) : (x.modTab g).throttled = x.throttled := rfl
@[simp] theorem Die.modBoth_throttled (g : Tables → Tables) : (x.modBoth g).throttled = x.throttled := rfl
@[simp] theorem Die.modPort_window (p : Nat) (g : Port → Port) : (x.modPort p g).window = x.window := rfl
@[simp] theorem Die.count_window (k n : Nat) : (x.count k n).window = x.window := rfl
@[simp] theorem Die.modTab_window (g : Tables → Tables) : (x.modTab g).window = x.window := rfl
@[simp] theorem Die.modBoth_window (g : Tables → Tables) : (x.modBoth g).window = x.window := rfl
@[simp] theorem Die.modPort_runs (p : Nat) (g : Port → Port) : (x.modPort p g).runs = x.runs := rfl
@[simp] theorem Die.count_runs (k n : Nat) : (x.count k n).runs = x.runs := rfl
@[simp] theorem Die.modTab_runs (g : Tables → Tables) : (x.modTab g).runs = x.runs := rfl
@[simp] theorem Die.modBoth_runs (g : Tables → Tables) : (x.modBoth g).runs = x.runs := rfl
@[simp] theorem Die.modPort_short (p : Nat) (g : Port → Port) : (x.modPort p g).short = x.short := rfl
@[simp] theorem Die.count_short (k n : Nat) : (x.count k n).short = x.short := rfl
@[simp] theorem Die.modTab_short (g : Tables → Tables) : (x.modTab g).short = x.short := rfl
@[simp] theorem Die.modBoth_short (g : Tables → Tables) : (x.modBoth g).short = x.short := rfl
@[simp] theorem Die.modPort_overrun (p : Nat) (g : Port → Port) : (x.modPort p g).overrun = x.overrun := rfl
@[simp] theorem Die.count_overrun (k n : Nat) : (x.count k n).overrun = x.overrun := rfl
@[simp] theorem Die.modTab_overrun (g : Tables → Tables) : (x.modTab g).overrun = x.overrun := rfl
@[simp] theorem Die.modBoth_overrun (g : Tables → Tables) : (x.modBoth g).overrun = x.overrun := rfl
@[simp] theorem Die.modPort_ctr (p : Nat) (g : Port → Port) : (x.modPort p g).ctr = x.ctr := rfl
@[simp] theorem Die.modTab_ctr (g : Tables → Tables) : (x.modTab g).ctr = x.ctr := rfl
@[simp] theorem Die.modBoth_ctr (g : Tables → Tables) : (x.modBoth g).ctr = x.ctr := rfl
@[simp] theorem Die.modPort_ctrView (p : Nat) (g : Port → Port) : (x.modPort p g).ctrView = x.ctrView := rfl
@[simp] theorem Die.count_ctrView (k n : Nat) : (x.count k n).ctrView = x.ctrView := rfl
@[simp] theorem Die.modTab_ctrView (g : Tables → Tables) : (x.modTab g).ctrView = x.ctrView := rfl
@[simp] theorem Die.modBoth_ctrView (g : Tables → Tables) : (x.modBoth g).ctrView = x.ctrView := rfl
@[simp] theorem Die.modPort_touched (p : Nat) (g : Port → Port) : (x.modPort p g).touched = x.touched := rfl
@[simp] theorem Die.count_touched (k n : Nat) : (x.count k n).touched = x.touched := rfl
@[simp] theorem Die.modTab_touched (g : Tables → Tables) : (x.modTab g).touched = x.touched := rfl
@[simp] theorem Die.modBoth_touched (g : Tables → Tables) : (x.modBoth g).touched = x.touched := rfl
@[simp] theorem Die.modPort_fencedAt (p : Nat) (g : Port → Port) : (x.modPort p g).fencedAt = x.fencedAt := rfl
@[simp] theorem Die.count_fencedAt (k n : Nat) : (x.count k n).fencedAt = x.fencedAt := rfl
@[simp] theorem Die.modTab_fencedAt (g : Tables → Tables) : (x.modTab g).fencedAt = x.fencedAt := rfl
@[simp] theorem Die.modBoth_fencedAt (g : Tables → Tables) : (x.modBoth g).fencedAt = x.fencedAt := rfl
@[simp] theorem Die.modPort_remaps (p : Nat) (g : Port → Port) : (x.modPort p g).remaps = x.remaps := rfl
@[simp] theorem Die.count_remaps (k n : Nat) : (x.count k n).remaps = x.remaps := rfl
@[simp] theorem Die.modTab_remaps (g : Tables → Tables) : (x.modTab g).remaps = x.remaps := rfl
@[simp] theorem Die.modBoth_remaps (g : Tables → Tables) : (x.modBoth g).remaps = x.remaps := rfl
@[simp] theorem Die.modPort_lostTo (p : Nat) (g : Port → Port) : (x.modPort p g).lostTo = x.lostTo := rfl
@[simp] theorem Die.count_lostTo (k n : Nat) : (x.count k n).lostTo = x.lostTo := rfl
@[simp] theorem Die.modTab_lostTo (g : Tables → Tables) : (x.modTab g).lostTo = x.lostTo := rfl
@[simp] theorem Die.modBoth_lostTo (g : Tables → Tables) : (x.modBoth g).lostTo = x.lostTo := rfl
@[simp] theorem Die.modPort_bestClaim (p : Nat) (g : Port → Port) : (x.modPort p g).bestClaim = x.bestClaim := rfl
@[simp] theorem Die.count_bestClaim (k n : Nat) : (x.count k n).bestClaim = x.bestClaim := rfl
@[simp] theorem Die.modTab_bestClaim (g : Tables → Tables) : (x.modTab g).bestClaim = x.bestClaim := rfl
@[simp] theorem Die.modBoth_bestClaim (g : Tables → Tables) : (x.modBoth g).bestClaim = x.bestClaim := rfl
@[simp] theorem Die.modPort_laneGroups (p : Nat) (g : Port → Port) : (x.modPort p g).laneGroups = x.laneGroups := rfl
@[simp] theorem Die.count_laneGroups (k n : Nat) : (x.count k n).laneGroups = x.laneGroups := rfl
@[simp] theorem Die.modTab_laneGroups (g : Tables → Tables) : (x.modTab g).laneGroups = x.laneGroups := rfl
@[simp] theorem Die.modBoth_laneGroups (g : Tables → Tables) : (x.modBoth g).laneGroups = x.laneGroups := rfl
@[simp] theorem Die.modPort_shed (p : Nat) (g : Port → Port) : (x.modPort p g).shed = x.shed := rfl
@[simp] theorem Die.count_shed (k n : Nat) : (x.count k n).shed = x.shed := rfl
@[simp] theorem Die.modTab_shed (g : Tables → Tables) : (x.modTab g).shed = x.shed := rfl
@[simp] theorem Die.modBoth_shed (g : Tables → Tables) : (x.modBoth g).shed = x.shed := rfl
@[simp] theorem Die.modPort_loop (p : Nat) (g : Port → Port) : (x.modPort p g).loop = x.loop := rfl
@[simp] theorem Die.count_loop (k n : Nat) : (x.count k n).loop = x.loop := rfl
@[simp] theorem Die.modTab_loop (g : Tables → Tables) : (x.modTab g).loop = x.loop := rfl
@[simp] theorem Die.modBoth_loop (g : Tables → Tables) : (x.modBoth g).loop = x.loop := rfl
@[simp] theorem Die.modTab_tab (g : Tables → Tables) : (x.modTab g).tab = g x.tab := rfl
@[simp] theorem Die.modBoth_tab (g : Tables → Tables) : (x.modBoth g).tab = g x.tab := rfl
@[simp] theorem Die.modBoth_view (g : Tables → Tables) : (x.modBoth g).view = g x.view := rfl
@[simp] theorem Die.count_port (k n p : Nat) : (x.count k n).port p = x.port p := rfl
@[simp] theorem Die.modTab_port (g : Tables → Tables) (p : Nat) : (x.modTab g).port p = x.port p := rfl

end Sys2Proof.Machine
end

