-- ==== Sys2Proof/Laws/Kept.lean ====
section
/-! SUPPORT. What most operations leave alone, said once: the fixed part of a state (the queue, the fuse bits, the token epoch and its
claims, the byte memories beside the trace, the data caps, `GRADE`) and the order of what is logged. Of each shared operation: that it
keeps them, or what it does to the log. -/

namespace Sys2Proof.Machine

variable {s : State}

/-! ### The two parts -/

/-- What no command changes but those that name it: the queue, the fuse bits, the token epoch and its claims, the byte memories of
the flash banks and of the MSP instances, the data caps of the bays, and `GRADE`. -/
structure Fixed where
  pending : List Instr
  bits : BitVec 4096
  epoch : BitVec 32
  claims : List Claim
  bank0 : List Host.Cell
  bank1 : List Host.Cell
  bufA : List Host.Cell
  bufB : List Host.Cell
  caps : Map Nat
  grade : BitVec 8

/-- The fixed part of a state. -/
def State.fixed (s : State) : Fixed :=
  ⟨s.pending, s.fuse.bits, s.tok.epoch, s.tok.claims, s.fw.bank0.mem, s.fw.bank1.mem, s.mspA.buf, s.mspB.buf, s.pow.bayCap, s.pow.grade⟩

/-- What a state has logged: the trace buffer and the event queues. -/
structure Logged where
  mem : List Host.Cell
  queues : Map (List EvRec)

/-- The logged part of a state. -/
def State.logged (s : State) : Logged := ⟨s.trace.mem, s.evs.queues⟩

/-- The trace buffer is canonical, and no event queue holds more than 256 events. -/
def Logged.ok (l : Logged) : Prop := Mem.wf 0 l.mem = true ∧ ∀ e ∈ l.queues, e.2.length ≤ 256

theorem safe_iff : s.safe = true ↔ s.logged.ok ∧ Mem.wf 0xFF s.fixed.bank0 = true ∧ Mem.wf 0xFF s.fixed.bank1 = true ∧
    Mem.wf 0 s.fixed.bufA = true ∧ Mem.wf 0 s.fixed.bufB = true ∧ Map.wf s.fixed.caps = true ∧ s.fixed.grade.toNat ≤ 3 := by
  simp only [State.safe, State.memoriesWf, Logged.ok, State.logged, State.fixed, Bool.and_eq_true, List.all_eq_true, decide_eq_true_eq]
  exact ⟨fun ⟨⟨⟨⟨⟨⟨⟨a, b⟩, c⟩, d⟩, e⟩, f⟩, g⟩, h⟩ => ⟨⟨a, f⟩, b, c, d, e, g, h⟩,
    fun ⟨⟨a, f⟩, b, c, d, e, g, h⟩ => ⟨⟨⟨⟨⟨⟨⟨a, b⟩, c⟩, d⟩, e⟩, f⟩, g⟩, h⟩⟩

@[simp] theorem fixed_mk (q0 q1 q2 q3 : Die) (boot : Boot) (tok : Token) (mbx : Mailbox) (evs : Events) (fuse : Fuses) (fw : Firmware)
    (mspA mspB : Msp) (pow : Power) (bays : Map Bay) (elect : Elect) (notes : Notices) (sweeps : List SweepRec) (trace : Trace)
    (out : List Out) (free : Nat) (pending : List Instr) :
    State.fixed ⟨q0, q1, q2, q3, boot, tok, mbx, evs, fuse, fw, mspA, mspB, pow, bays, elect, notes, sweeps, trace, out, free, pending⟩ =
      ⟨pending, fuse.bits, tok.epoch, tok.claims, fw.bank0.mem, fw.bank1.mem, mspA.buf, mspB.buf, pow.bayCap, pow.grade⟩ := rfl

@[simp] theorem fixed_eta : (⟨s.pending, s.fuse.bits, s.tok.epoch, s.tok.claims, s.fw.bank0.mem, s.fw.bank1.mem, s.mspA.buf,
    s.mspB.buf, s.pow.bayCap, s.pow.grade⟩ : Fixed) = s.fixed := rfl

@[simp] theorem logged_mk (q0 q1 q2 q3 : Die) (boot : Boot) (tok : Token) (mbx : Mailbox) (evs : Events) (fuse : Fuses) (fw : Firmware)
    (mspA mspB : Msp) (pow : Power) (bays : Map Bay) (elect : Elect) (notes : Notices) (sweeps : List SweepRec) (trace : Trace)
    (out : List Out) (free : Nat) (pending : List Instr) :
    State.logged ⟨q0, q1, q2, q3, boot, tok, mbx, evs, fuse, fw, mspA, mspB, pow, bays, elect, notes, sweeps, trace, out, free, pending⟩ =
      ⟨trace.mem, evs.queues⟩ := rfl

@[simp] theorem logged_eta : (⟨s.trace.mem, s.evs.queues⟩ : Logged) = s.logged := rfl

/-- A fold of steps that keep the fixed part keeps it. -/
theorem fixed_foldl {α : Type} {f : State → α → State} (h : ∀ t a, (f t a).fixed = t.fixed) (l : List α) (t : State) :
    (l.foldl f t).fixed = t.fixed := by
  induction l generalizing t with
  | nil => rfl
  | cons a l ih => exact (ih _).trans (h t a)

/-- A fold of steps that keep the log in order keeps it. -/
theorem ok_foldl {α : Type} {f : State → α → State} (h : ∀ t a, t.logged.ok → (f t a).logged.ok) (l : List α) {t : State}
    (ht : t.logged.ok) : (l.foldl f t).logged.ok := by
  induction l generalizing t with
  | nil => exact ht
  | cons a l ih => exact ih (h t a ht)

/-- A fold of steps that keep the log keeps it. -/
theorem logged_foldl {α : Type} {f : State → α → State} (h : ∀ t a, (f t a).logged = t.logged) (l : List α) (t : State) :
    (l.foldl f t).logged = t.logged := by
  induction l generalizing t with
  | nil => rfl
  | cons a l ih => exact (ih _).trans (h t a)

@[simp] theorem fixed_ite (c : Prop) [Decidable c] (a b : State) :
    (if c then a else b).fixed = if c then a.fixed else b.fixed := by split <;> rfl

@[simp] theorem logged_ite (c : Prop) [Decidable c] (a b : State) :
    (if c then a else b).logged = if c then a.logged else b.logged := by split <;> rfl

@[simp] theorem ok_ite (c : Prop) [Decidable c] {a b : Logged} (ha : a.ok) (hb : b.ok) : (if c then a else b).ok := by
  split <;> assumption

theorem ok_either (c : Prop) [Decidable c] {a b : State} (ha : a.logged.ok) (hb : b.logged.ok) : (if c then a else b).logged.ok := by
  split <;> assumption

theorem ok_pow (p : Power) (h : s.logged.ok) : ({ s with pow := p } : State).logged.ok := h

/-! ### The operations of Ops.lean -/

@[simp] theorem State.setDie_fixed (d : DieId) (x : Die) : (s.setDie d x).fixed = s.fixed := by unfold State.setDie; split <;> simp

@[simp] theorem State.setDie_logged (d : DieId) (x : Die) : (s.setDie d x).logged = s.logged := by unfold State.setDie; split <;> simp

@[simp] theorem State.modDie_fixed (d : DieId) (f : Die → Die) : (s.modDie d f).fixed = s.fixed := by simp [State.modDie]

@[simp] theorem State.modDie_logged (d : DieId) (f : Die → Die) : (s.modDie d f).logged = s.logged := by simp [State.modDie]

@[simp] theorem State.allDies_fixed (f : Die → Die) : (s.allDies f).fixed = s.fixed := rfl

@[simp] theorem State.allDies_logged (f : Die → Die) : (s.allDies f).logged = s.logged := rfl

@[simp] theorem State.emit_fixed (o : Out) : (s.emit o).fixed = s.fixed := rfl

@[simp] theorem State.emit_logged (o : Out) : (s.emit o).logged = s.logged := rfl

@[simp] theorem State.toLink_fixed (c : Channel) (a : BitVec 144) (n : Nat) : (s.toLink c a n).fixed = s.fixed := rfl

@[simp] theorem State.toLink_logged (c : Channel) (a : BitVec 144) (n : Nat) : (s.toLink c a n).logged = s.logged := rfl

@[simp] theorem State.mail_fixed (m : Mail) : (s.mail m).fixed = s.fixed := rfl

@[simp] theorem State.mail_logged (m : Mail) : (s.mail m).logged = s.logged := rfl

@[simp] theorem State.mailBack_fixed (f : Frame) (op : Nat) (st : Status) (p : List Byte) : (s.mailBack f op st p).fixed = s.fixed := by
  unfold State.mailBack; split <;> rfl

@[simp] theorem State.mailBack_logged (f : Frame) (op : Nat) (st : Status) (p : List Byte) : (s.mailBack f op st p).logged = s.logged := by
  unfold State.mailBack; split <;> rfl

@[simp] theorem State.fresh_fixed : s.fresh.fixed = s.fixed := rfl

@[simp] theorem State.fresh_logged : s.fresh.logged = s.logged := rfl

@[simp] theorem State.countFc_fixed (k : Nat) (n : Nat) : (s.countFc k n).fixed = s.fixed := rfl

@[simp] theorem State.countFc_logged (k : Nat) (n : Nat) : (s.countFc k n).logged = s.logged := rfl

@[simp] theorem State.modCore_fixed (c : Nat) (f : TraceCore → TraceCore) : (s.modCore c f).fixed = s.fixed := rfl

@[simp] theorem State.modCore_logged (c : Nat) (f : TraceCore → TraceCore) : (s.modCore c f).logged = s.logged := rfl

@[simp] theorem State.resumeCore_fixed (c : Nat) (cause : Nat) : (s.resumeCore c cause).fixed = s.fixed := rfl

@[simp] theorem State.resumeCore_logged (c : Nat) (cause : Nat) : (s.resumeCore c cause).logged = s.logged := rfl

@[simp] theorem State.countLost_fixed (core n : Nat) : (s.countLost core n).fixed = s.fixed := by unfold State.countLost; split <;> simp

@[simp] theorem State.countLost_logged (core n : Nat) : (s.countLost core n).logged = s.logged := by unfold State.countLost; split <;> simp

@[simp] theorem State.traceWrite_fixed (core type : Nat) (payload : List Byte) : (s.traceWrite core type payload).fixed = s.fixed := by
  unfold State.traceWrite
  dsimp only
  repeat' split
  all_goals simp

@[simp] theorem State.traceWrite_logged (core type : Nat) (payload : List Byte) : (s.traceWrite core type payload).logged = s.logged := by
  unfold State.traceWrite
  dsimp only
  repeat' split
  all_goals simp

/-- A record written to the trace buffer keeps it canonical. -/
theorem Trace.store_wf {t : Trace} (h : Mem.wf 0 t.mem = true) (r : List Byte) : Mem.wf 0 (t.store r).mem = true := by
  unfold Trace.store
  dsimp only
  repeat' split
  all_goals first | exact Mem.wf_writes _ h _ | exact Mem.wf_writes _ (Mem.wf_writes _ h _) _

@[simp] theorem State.deliver_fixed (c n : Nat) : (s.deliver c n).fixed = s.fixed := by
  induction n generalizing s with
  | zero => rfl
  | succ n ih =>
    unfold State.deliver
    split
    · rfl
    · rw [ih]
      rfl

@[simp] theorem State.deliver_ok (c n : Nat) (h : s.logged.ok) : (s.deliver c n).logged.ok := by
  induction n generalizing s with
  | zero => exact h
  | succ n ih =>
    unfold State.deliver
    split
    · exact h
    · exact ih ⟨Trace.store_wf h.1 _, h.2⟩

@[simp] theorem State.post_fixed (c : Nat) (ev : Event) : (s.post c ev).fixed = s.fixed := by
  unfold State.post
  dsimp only
  repeat' split
  all_goals simp

/-- The queue of a channel holds at most 256 events when the log is in order. -/
theorem lookD_le (h : s.logged.ok) (c : Nat) : (Map.lookD s.evs.queues c []).length ≤ 256 := by
  unfold Map.lookD
  cases e : Map.look s.evs.queues c with
  | none => exact Nat.zero_le _
  | some q => exact h.2 (c, q) (Map.look_mem e)

/-- Posting an event keeps the log in order. -/
@[simp] theorem State.post_ok (c : Nat) (ev : Event) (h : s.logged.ok) : (s.post c ev).logged.ok := by
  unfold State.post
  dsimp only
  split
  · rename_i hq
    refine ⟨h.1, fun e he => ?_⟩
    rcases Map.put_mem _ _ _ e he with rfl | he
    · simpa using Nat.succ_le_of_lt hq
    · exact h.2 e he
  · simpa only [State.countFc_logged, logged_mk, logged_eta] using h

@[simp] theorem State.tellSubs_fixed (ev : Event) : (s.tellSubs ev).fixed = s.fixed := by
  unfold State.tellSubs
  exact fixed_foldl (fun _ _ => by simp) _ _

@[simp] theorem State.tellSubs_logged (ev : Event) : (s.tellSubs ev).logged = s.logged := by
  unfold State.tellSubs
  exact logged_foldl (fun _ _ => by simp) _ _

@[simp] theorem State.raise_fixed (ev : Event) : (s.raise ev).fixed = s.fixed := by simp [State.raise]

@[simp] theorem State.raise_ok (ev : Event) (h : s.logged.ok) : (s.raise ev).logged.ok := by
  simp only [State.raise, State.traceWrite_logged, State.tellSubs_logged]
  exact ok_foldl (fun _ _ h => State.post_ok _ _ h) _ h

@[simp] theorem State.raiseDie_fixed (op : Nat) (d : DieId) (port part vc : Byte) (cause : Byte) (detail : List Byte) : (s.raiseDie op d port part vc cause detail).fixed = s.fixed := by simp [State.raiseDie]

@[simp] theorem State.raiseDie_ok (op : Nat) (d : DieId) (port part vc : Byte) (cause : Byte) (detail : List Byte) (h : s.logged.ok) : (s.raiseDie op d port part vc cause detail).logged.ok := by simp [State.raiseDie, h]

@[simp] theorem State.raiseTray_fixed (op : Nat) (cause : Byte) (detail : List Byte) : (s.raiseTray op cause detail).fixed = s.fixed := by simp [State.raiseTray]

@[simp] theorem State.raiseTray_ok (op : Nat) (cause : Byte) (detail : List Byte) (h : s.logged.ok) : (s.raiseTray op cause detail).logged.ok := by simp [State.raiseTray, h]

@[simp] theorem State.finishMsp_fixed (f : Frame) : (s.finishMsp f).fixed = s.fixed := by unfold State.finishMsp; split <;> rfl

@[simp] theorem State.finishMsp_logged (f : Frame) : (s.finishMsp f).logged = s.logged := by unfold State.finishMsp; split <;> simp

@[simp] theorem State.endSlot_fixed (f : Frame) (op : Nat) (st : Status) (payload : List Byte) : (s.endSlot f op st payload).fixed = s.fixed := by unfold State.endSlot; split <;> simp

@[simp] theorem State.endSlot_logged (f : Frame) (op : Nat) (st : Status) (payload : List Byte) : (s.endSlot f op st payload).logged = s.logged := by unfold State.endSlot; split <;> simp

@[simp] theorem State.answer_fixed (f : Frame) (op : Nat) (st : Status) (payload : List Byte) : (s.answer f op st payload).fixed = s.fixed := by simp [State.answer]

@[simp] theorem State.answer_logged (f : Frame) (op : Nat) (st : Status) (payload : List Byte) : (s.answer f op st payload).logged = s.logged := by simp [State.answer]

@[simp] theorem State.noteAccepted_fixed (f : Frame) : (s.noteAccepted f).fixed = s.fixed := by
  unfold State.noteAccepted
  dsimp only
  repeat' split
  all_goals simp

@[simp] theorem State.noteAccepted_logged (f : Frame) : (s.noteAccepted f).logged = s.logged := by
  unfold State.noteAccepted
  dsimp only
  repeat' split
  all_goals simp

@[simp] theorem State.traceDieWrite_fixed (d : DieId) (table op first count : Nat) (st : Status) : (s.traceDieWrite d table op first count st).fixed = s.fixed := by simp [State.traceDieWrite]

@[simp] theorem State.traceDieWrite_logged (d : DieId) (table op first count : Nat) (st : Status) : (s.traceDieWrite d table op first count st).logged = s.logged := by simp [State.traceDieWrite]

/-! ### Requests -/

/-- `t` has the fixed part of `s`, and its log is in order if that of `s` is. -/
def Keeps (s t : State) : Prop := t.fixed = s.fixed ∧ (s.logged.ok → t.logged.ok)

theorem Keeps.refl (s : State) : Keeps s s := ⟨rfl, id⟩

theorem Keeps.trans {s t u : State} (h : Keeps s t) (k : Keeps t u) : Keeps s u := ⟨k.1.trans h.1, fun o => k.2 (h.2 o)⟩

/-- A state with the same fixed part and the same log. -/
theorem Keeps.same {s t : State} (h : t.fixed = s.fixed) (k : t.logged = s.logged) : Keeps s t := ⟨h, fun o => k ▸ o⟩

theorem Keeps.foldl {α : Type} {f : State → α → State} (h : ∀ t a, Keeps t (f t a)) (l : List α) (t : State) :
    Keeps t (l.foldl f t) := by
  induction l generalizing t with
  | nil => exact Keeps.refl t
  | cons a l ih => exact (h t a).trans (ih _)

theorem Keeps.answer {s t : State} (h : Keeps s t) (f : Frame) (op : Nat) (st : Status) (p : List Byte) :
    Keeps s (t.answer f op st p) := h.trans (.same (by simp) (by simp))

theorem Keeps.note {s t : State} (h : Keeps s t) (f : Frame) : Keeps s (t.noteAccepted f) := h.trans (.same (by simp) (by simp))

/-- Serving a request does no more than its body does. -/
theorem State.serve_keeps (c : Cmd) (f : Frame) {body : State → State × Reply} {s r : State} (hs : Keeps r s)
    (h : Keeps r (body s.fresh).1) : Keeps r (s.serve c f body) := by
  have hf : Keeps r s.fresh := hs.trans (.same (by simp) (by simp))
  unfold State.serve
  dsimp only
  repeat' split
  · exact hf
  · exact hf.trans (.same (by simp) (by simp))
  · exact hf.trans (.same (by simp) (by simp))
  · exact hf.trans (.same (by simp) (by simp))
  · exact hf.answer _ _ _ _
  · exact hf.answer _ _ _ _
  · exact hf.answer _ _ _ _
  · rename_i e _
    rw [e] at h
    exact (h.note f).answer _ _ _ _
  · rename_i e _
    rw [e] at h
    exact h.answer _ _ _ _
  · rename_i e
    rw [e] at h
    exact h.note f

theorem State.serveRead_keeps (c : Cmd) (f : Frame) (read : State → Status × List Byte) : Keeps s (s.serveRead c f read) :=
  State.serve_keeps c f (.refl s) (.same (by simp) (by simp))

theorem State.overDiesWith_keeps {α : Type} {act : DieId → State → State × Status × α} (h : ∀ d t, Keeps t (act d t).1) (mask : Byte)
    (no : α) : Keeps s (s.overDiesWith mask no act).1 := by
  have one (acc : State × List Status × List α) (d : DieId) : Keeps acc.1 (overOne mask no act acc d).1 := by
    unfold overOne
    repeat' split
    · exact h d acc.1
    · exact .refl _
    · exact .refl _
  have all (l : List DieId) (acc : State × List Status × List α) : Keeps acc.1 (l.foldl (overOne mask no act) acc).1 := by
    induction l generalizing acc with
    | nil => exact .refl _
    | cons d l ih => exact (one acc d).trans (ih _)
  exact all _ _

theorem dieAct_keeps (op a b c : Nat) (act : Die → Except Status Die) (d : DieId) (t : State) : Keeps t (dieAct op a b c act d t).1 := by
  unfold dieAct
  split <;> exact .same (by simp) (by simp)

theorem State.serveMaskWith_keeps {α : Type} (c : Cmd) (f : Frame) (part mask : Byte) (bad : Bool) (no : α)
    {act : DieId → State → State × Status × α} (more : State → List α → List Byte) (h : ∀ d t, Keeps t (act d t).1) :
    Keeps s (s.serveMaskWith c f part mask bad no act more) := by
  refine State.serve_keeps _ f (.refl s) ?_
  split
  · exact .same (by simp) (by simp)
  · exact Keeps.trans (.same (by simp) (by simp)) (State.overDiesWith_keeps h mask no)

theorem State.serveMask_keeps (c : Cmd) (f : Frame) (part mask : Byte) (bad : Bool) {act : DieId → State → State × Status}
    (h : ∀ d t, Keeps t (act d t).1) : Keeps s (s.serveMask c f part mask bad act) :=
  State.serveMaskWith_keeps c f part mask bad () _ h

theorem State.serveDie_keeps (c : Cmd) (f : Frame) (part die : Byte) (bad : Bool)
    {act : DieId → State → State × Status × List Byte} (h : ∀ d t, Keeps t (act d t).1) :
    Keeps s (s.serveDie c f part die bad act) := by
  refine State.serve_keeps _ f (.refl s) ?_
  have hf : Keeps s s.fresh := .same (by simp) (by simp)
  dsimp only
  repeat' split
  · exact hf
  · exact hf
  · exact hf.trans (h _ _)
  · exact hf

end Sys2Proof.Machine
end

