-- ==== Sys2Proof/Laws/KeptOps.lean ====
section
/-! SUPPORT. What the shared operations on links, the tick, flow control, power, routes and pours keep of a state (Laws/Kept.lean): each
leaves the fixed part alone, and leaves the log as it is or in order. -/

namespace Sys2Proof.Machine

variable {s : State}

@[simp] theorem State.sendMember_fixed (d : DieId) (k : PourKey) (part : BitVec 4) (rank : Nat) (ep : BitVec 11)
    (result : Option (List Byte)) (word : BitVec 128) (mark : Bool) (place : Option (PourKey × Place)) :
    (s.sendMember d k part rank ep result word mark place).fixed = s.fixed := by
  unfold State.sendMember
  dsimp only
  repeat' split
  all_goals simp
@[simp] theorem State.sendMember_logged (d : DieId) (k : PourKey) (part : BitVec 4) (rank : Nat) (ep : BitVec 11)
    (result : Option (List Byte)) (word : BitVec 128) (mark : Bool) (place : Option (PourKey × Place)) :
    (s.sendMember d k part rank ep result word mark place).logged = s.logged := by
  unfold State.sendMember
  dsimp only
  repeat' split
  all_goals simp
@[simp] theorem State.abortWords_fixed (d : DieId) (k : PourKey) (part : BitVec 4) (status : BitVec 4) (ins : Map Input) (m : Bool) :
    (s.abortWords d k part status ins m).fixed = s.fixed := by
  unfold State.abortWords
  exact fixed_foldl (fun _ _ => by split <;> simp) _ _
@[simp] theorem State.abortWords_logged (d : DieId) (k : PourKey) (part : BitVec 4) (status : BitVec 4) (ins : Map Input) (m : Bool) :
    (s.abortWords d k part status ins m).logged = s.logged := by
  unfold State.abortWords
  exact logged_foldl (fun _ _ => by split <;> simp) _ _
@[simp] theorem State.abortHeads_fixed (d : DieId) (k : PourKey) (part : BitVec 4) (status : BitVec 4) (m : Bool) :
    (s.abortHeads d k part status m).fixed = s.fixed := by
  unfold State.abortHeads
  dsimp only
  repeat' split
  all_goals first
    | exact fixed_foldl (fun _ _ => by split <;> simp) _ _
    | simp
@[simp] theorem State.abortHeads_logged (d : DieId) (k : PourKey) (part : BitVec 4) (status : BitVec 4) (m : Bool) :
    (s.abortHeads d k part status m).logged = s.logged := by
  unfold State.abortHeads
  dsimp only
  repeat' split
  all_goals first
    | exact logged_foldl (fun _ _ => by split <;> simp) _ _
    | simp
@[simp] theorem State.abortPour_fixed (d : DieId) (k : PourKey) (status : BitVec 4) (heads m : Bool) :
    (s.abortPour d k status heads m).fixed = s.fixed := by
  unfold State.abortPour
  dsimp only
  repeat' split
  all_goals simp
@[simp] theorem State.abortPour_logged (d : DieId) (k : PourKey) (status : BitVec 4) (heads m : Bool) :
    (s.abortPour d k status heads m).logged = s.logged := by
  unfold State.abortPour
  dsimp only
  repeat' split
  all_goals simp
@[simp] theorem State.abortAll_fixed (d : DieId) (status : BitVec 4) (p : Pour → Bool) :
    (s.abortAll d status p).fixed = s.fixed := by
  unfold State.abortAll
  exact fixed_foldl (fun _ _ => by simp) _ _
@[simp] theorem State.abortAll_logged (d : DieId) (status : BitVec 4) (p : Pour → Bool) :
    (s.abortAll d status p).logged = s.logged := by
  unfold State.abortAll
  exact logged_foldl (fun _ _ => by simp) _ _
@[simp] theorem State.setFpsm_fixed (p : Fpsm) : (s.setFpsm p).fixed = s.fixed := rfl
@[simp] theorem State.setFpsm_logged (p : Fpsm) : (s.setFpsm p).logged = s.logged := rfl
@[simp] theorem State.beginRead_fixed (l n : Nat) : (s.beginRead l n).fixed = s.fixed := rfl
@[simp] theorem State.beginRead_logged (l n : Nat) : (s.beginRead l n).logged = s.logged := rfl
@[simp] theorem State.startWork_fixed : (s.startWork).fixed = s.fixed := by
  unfold State.startWork
  dsimp only
  repeat' split
  all_goals simp
@[simp] theorem State.startWork_logged : (s.startWork).logged = s.logged := by
  unfold State.startWork
  dsimp only
  repeat' split
  all_goals simp
@[simp] theorem State.endPart_fixed : (s.endPart).fixed = s.fixed := by
  unfold State.endPart
  dsimp only
  repeat' split
  all_goals simp
@[simp] theorem State.endPart_logged : (s.endPart).logged = s.logged := by
  unfold State.endPart
  dsimp only
  repeat' split
  all_goals simp
@[simp] theorem State.runFpsm_fixed (n t : Nat) : (State.runFpsm n t s).fixed = s.fixed := by
  induction n generalizing s t with
  | zero => rfl
  | succ n ih =>
    unfold State.runFpsm
    dsimp only
    repeat' split
    all_goals simp [ih]
@[simp] theorem State.runFpsm_logged (n t : Nat) : (State.runFpsm n t s).logged = s.logged := by
  induction n generalizing s t with
  | zero => rfl
  | succ n ih =>
    unfold State.runFpsm
    dsimp only
    repeat' split
    all_goals simp [ih]
@[simp] theorem State.tickFpsm_fixed : s.tickFpsm.fixed = s.fixed := by simp [State.tickFpsm]
@[simp] theorem State.tickFpsm_logged : s.tickFpsm.logged = s.logged := by simp [State.tickFpsm]
@[simp] theorem State.endFrame_fixed (n : Nat) : (State.endFrame n s).fixed = s.fixed := by
  induction n generalizing s with
  | zero => rfl
  | succ n ih => unfold State.endFrame; split <;> simp [ih]
@[simp] theorem State.endFrame_logged (n : Nat) : (State.endFrame n s).logged = s.logged := by
  induction n generalizing s with
  | zero => rfl
  | succ n ih => unfold State.endFrame; split <;> simp [ih]
@[simp] theorem State.askCaddy_fixed (f : CaddyFrame) : (s.askCaddy f).fixed = s.fixed := by simp [State.askCaddy]
@[simp] theorem State.askCaddy_logged (f : CaddyFrame) : (s.askCaddy f).logged = s.logged := by simp [State.askCaddy]
@[simp] theorem State.demandLine_fixed (m : Fin 4 × Nat) : (s.demandLine m).fixed = s.fixed := by
  unfold State.demandLine
  dsimp only
  repeat' split
  all_goals simp
@[simp] theorem State.demandLine_logged (m : Fin 4 × Nat) : (s.demandLine m).logged = s.logged := by
  unfold State.demandLine
  dsimp only
  repeat' split
  all_goals simp
@[simp] theorem State.flashOp_fixed (w : List (Nat × List Byte)) : (s.flashOp w).fixed = s.fixed := by simp [State.flashOp]
@[simp] theorem State.flashOp_logged (w : List (Nat × List Byte)) : (s.flashOp w).logged = s.logged := by simp [State.flashOp]
@[simp] theorem State.audit_fixed (kind : BitVec 8) (u : FuseUse) (cred epoch : Byte) : (s.audit kind u cred epoch).fixed = s.fixed := by simp [State.audit]
@[simp] theorem State.audit_logged (kind : BitVec 8) (u : FuseUse) (cred epoch : Byte) : (s.audit kind u cred epoch).logged = s.logged := by simp [State.audit]
@[simp] theorem State.startFuse_fixed (f : Frame) (uses : List FuseUse) (pend : Option (Fin 4 × BitVec 384))
    (ident : Option IdRec) :
    (s.startFuse f uses pend ident).1.fixed = s.fixed := by
  unfold State.startFuse
  dsimp only
  repeat' split
  all_goals simp
@[simp] theorem State.startFuse_logged (f : Frame) (uses : List FuseUse) (pend : Option (Fin 4 × BitVec 384))
    (ident : Option IdRec) :
    (s.startFuse f uses pend ident).1.logged = s.logged := by
  unfold State.startFuse
  dsimp only
  repeat' split
  all_goals simp
@[simp] theorem State.modBay_fixed (c : BayId) (f : Bay → Bay) : (s.modBay c f).fixed = s.fixed := rfl
@[simp] theorem State.modBay_logged (c : BayId) (f : Bay → Bay) : (s.modBay c f).logged = s.logged := rfl
@[simp] theorem State.requestSwitch_fixed (d : DieId) (p : Nat) (lanes : BitVec 4) (slow : Bool) (reason : BitVec 3)
    (byLoss : Bool) :
    (s.requestSwitch d p lanes slow reason byLoss).fixed = s.fixed := by
  simp [State.requestSwitch]
@[simp] theorem State.requestSwitch_logged (d : DieId) (p : Nat) (lanes : BitVec 4) (slow : Bool) (reason : BitVec 3)
    (byLoss : Bool) :
    (s.requestSwitch d p lanes slow reason byLoss).logged = s.logged := by
  simp [State.requestSwitch]
@[simp] theorem State.raisePort_fixed (op : Nat) (d : DieId) (p : Nat) (cause : Byte) (detail : List Byte) :
    (s.raisePort op d p cause detail).fixed = s.fixed := by
  simp [State.raisePort]
@[simp] theorem State.raisePort_ok (op : Nat) (d : DieId) (p : Nat) (cause : Byte) (detail : List Byte) (hs : s.logged.ok) :
    (s.raisePort op d p cause detail).logged.ok := by
  simp [State.raisePort, hs]
@[simp] theorem State.raiseDegrade_fixed (d : DieId) (p : Nat) : (s.raiseDegrade d p).fixed = s.fixed := by
  simp [State.raiseDegrade]
@[simp] theorem State.raiseDegrade_ok (d : DieId) (p : Nat) (hs : s.logged.ok) : (s.raiseDegrade d p).logged.ok := by
  simp [State.raiseDegrade, hs]
@[simp] theorem State.reportRetrain_fixed (d : DieId) (p : Nat) (failed : Bool) :
    (s.reportRetrain d p failed).fixed = s.fixed := by
  simp [State.reportRetrain]
@[simp] theorem State.reportRetrain_ok (d : DieId) (p : Nat) (failed : Bool) (hs : s.logged.ok) :
    (s.reportRetrain d p failed).logged.ok := by
  simp [State.reportRetrain, hs]
@[simp] theorem State.onDies_fixed (f : Die → Die) : (s.onDies f).fixed = s.fixed := rfl
@[simp] theorem State.onDies_logged (f : Die → Die) : (s.onDies f).logged = s.logged := rfl
@[simp] theorem State.noteColl_fixed (q l : Nat) (restored : Bool) (decl : Tick) :
    (s.noteColl q l restored decl).fixed = s.fixed := by
  simp [State.noteColl]
@[simp] theorem State.noteColl_logged (q l : Nat) (restored : Bool) (decl : Tick) :
    (s.noteColl q l restored decl).logged = s.logged := by
  simp [State.noteColl]
@[simp] theorem State.applyReach_fixed (q l : Nat) (restored : Bool) (decl : Tick) :
    (s.applyReach q l restored decl).fixed = s.fixed := by
  simp [State.applyReach]
@[simp] theorem State.applyReach_logged (q l : Nat) (restored : Bool) (decl : Tick) :
    (s.applyReach q l restored decl).logged = s.logged := by
  simp [State.applyReach]
@[simp] theorem State.fabricLink_fixed (d : DieId) (p : Nat) (restored : Bool) : (s.fabricLink d p restored).fixed = s.fixed := by
  simp [State.fabricLink]
@[simp] theorem State.fabricLink_logged (d : DieId) (p : Nat) (restored : Bool) :
    (s.fabricLink d p restored).logged = s.logged := by
  simp [State.fabricLink]
@[simp] theorem State.abortLost_fixed (d : DieId) (l : List PourKey) : (s.abortLost d l).fixed = s.fixed := by
  unfold State.abortLost
  exact fixed_foldl (fun _ _ => by simp) _ _
@[simp] theorem State.abortLost_logged (d : DieId) (l : List PourKey) : (s.abortLost d l).logged = s.logged := by
  unfold State.abortLost
  exact logged_foldl (fun _ _ => by simp) _ _
@[simp] theorem State.bridgeDown_fixed (d : DieId) (p : Nat) : (s.bridgeDown d p).fixed = s.fixed := by simp [State.bridgeDown]
@[simp] theorem State.bridgeDown_ok (d : DieId) (p : Nat) (hs : s.logged.ok) : (s.bridgeDown d p).logged.ok := by
  unfold State.bridgeDown; split <;> simp [hs]
@[simp] theorem State.endSweep_fixed (d : DieId) (p : Nat) (result : BitVec 8) : (s.endSweep d p result).fixed = s.fixed := by
  unfold State.endSweep; split <;> simp
@[simp] theorem State.endSweep_ok (d : DieId) (p : Nat) (result : BitVec 8) (hs : s.logged.ok) :
    (s.endSweep d p result).logged.ok := by
  unfold State.endSweep; split <;> simp [hs]
@[simp] theorem State.failLink_fixed (d : DieId) (p : Nat) (row : Nat) (off : Bool) : (s.failLink d p row off).fixed = s.fixed := by
  unfold State.failLink
  dsimp only
  repeat' split
  all_goals simp
@[simp] theorem State.failLink_ok (d : DieId) (p : Nat) (row : Nat) (off : Bool) (hs : s.logged.ok) :
    (s.failLink d p row off).logged.ok := by
  unfold State.failLink
  dsimp only
  have h2 := State.endSweep_ok d p 1 (State.reportRetrain_ok d p true hs)
  split
  · simp [hs]
  · apply State.bridgeDown_ok
    simp only [State.abortLost_logged, State.fabricLink_logged]
    split
    all_goals
      repeat' with_reducible first
        | apply State.raiseDie_ok
        | apply State.raisePort_ok
        | rw [State.modDie_logged]
        | rw [logged_ite]
        | apply ok_ite
        | exact h2
@[simp] theorem State.stepFc4_ok (new : Tick) (hs : s.logged.ok) : (s.stepFc4 new).logged.ok := by
  refine ⟨hs.1, fun e he => ?_⟩
  obtain ⟨q, hq, rfl⟩ := List.mem_map.1 he
  simpa using hs.2 q hq
@[simp] theorem State.takeCount_ok (d : DieId) (new : Tick) (hs : s.logged.ok) : (s.takeCount d new).logged.ok := by
  unfold State.takeCount
  dsimp only
  split
  · exact State.stepFc4_ok _ (by simpa using hs)
  · simpa using hs
@[simp] theorem State.tickFault_fixed (d : DieId) (cause : Nat) : (s.tickFault d cause).fixed = s.fixed := by
  simp [State.tickFault]
@[simp] theorem State.tickFault_ok (d : DieId) (cause : Nat) (hs : s.logged.ok) : (s.tickFault d cause).logged.ok := by
  simp [State.tickFault, hs]
@[simp] theorem State.periodFault_ok (d : DieId) (m : MarkerInfo) (hs : s.logged.ok) : (s.periodFault d m).logged.ok := by
  simp [State.periodFault, hs]
@[simp] theorem State.noteLineage_fixed (d : DieId) (epoch : Byte) (hop : BitVec 4) :
    (s.noteLineage d epoch hop).fixed = s.fixed := by
  simp [State.noteLineage]
@[simp] theorem State.noteLineage_ok (d : DieId) (epoch : Byte) (hop : BitVec 4) (hs : s.logged.ok) :
    (s.noteLineage d epoch hop).logged.ok := by
  simp [State.noteLineage, hs]
@[simp] theorem State.parentMarker_ok (d : DieId) (m : MarkerInfo) (hs : s.logged.ok) : (s.parentMarker d m).logged.ok := by
  unfold State.parentMarker
  dsimp only
  repeat' split
  all_goals simp [hs]
@[simp] theorem State.sendFlow_fixed (d : DieId) (p key : Nat) : (s.sendFlow d p key).fixed = s.fixed := rfl
@[simp] theorem State.sendFlow_logged (d : DieId) (p key : Nat) : (s.sendFlow d p key).logged = s.logged := rfl
@[simp] theorem State.sendXoff_fixed (d : DieId) (p key : Nat) : (s.sendXoff d p key).fixed = s.fixed := by simp [State.sendXoff]
@[simp] theorem State.sendXoff_logged (d : DieId) (p key : Nat) : (s.sendXoff d p key).logged = s.logged := by
  simp [State.sendXoff]
@[simp] theorem State.grantPass_fixed (d : DieId) (key : Nat) (l : List Nat) : (s.grantPass d key l).fixed = s.fixed := by
  induction l generalizing s with
  | nil => rfl
  | cons p l ih =>
    unfold State.grantPass
    dsimp only
    simp [ih]
@[simp] theorem State.grant_fixed (d : DieId) (key : Nat) : (s.grant d key).fixed = s.fixed := by simp [State.grant]
@[simp] theorem State.grantPass_logged (d : DieId) (key : Nat) (l : List Nat) : (s.grantPass d key l).logged = s.logged := by
  induction l generalizing s with
  | nil => rfl
  | cons p l ih =>
    unfold State.grantPass
    dsimp only
    simp [ih]
@[simp] theorem State.grant_logged (d : DieId) (key : Nat) : (s.grant d key).logged = s.logged := by simp [State.grant]
@[simp] theorem State.checkXoff_fixed (d : DieId) (key : Nat) : (s.checkXoff d key).fixed = s.fixed := by
  unfold State.checkXoff
  simp [fixed_foldl]
@[simp] theorem State.checkXoff_logged (d : DieId) (key : Nat) : (s.checkXoff d key).logged = s.logged := by
  unfold State.checkXoff
  simp [logged_foldl]
@[simp] theorem State.noteArrival_fixed (d : DieId) (p key bytes : Nat) : (s.noteArrival d p key bytes).fixed = s.fixed := by
  simp [State.noteArrival]
@[simp] theorem State.noteArrival_logged (d : DieId) (p key bytes : Nat) : (s.noteArrival d p key bytes).logged = s.logged := by
  simp [State.noteArrival]
@[simp] theorem State.overrunDrop_fixed (d : DieId) (p : Nat) (h : Hdr) : (s.overrunDrop d p h).fixed = s.fixed := by
  simp [State.overrunDrop]
@[simp] theorem State.overrunDrop_ok (d : DieId) (p : Nat) (h : Hdr) (hs : s.logged.ok) : (s.overrunDrop d p h).logged.ok := by
  simp [State.overrunDrop, hs]
@[simp] theorem State.loseFifo_fixed (c : Nat) (sleepLost : Bool) : (s.loseFifo c sleepLost).fixed = s.fixed := by
  simp [State.loseFifo]
@[simp] theorem State.loseFifo_logged (c : Nat) (sleepLost : Bool) : (s.loseFifo c sleepLost).logged = s.logged := by
  simp [State.loseFifo]
@[simp] theorem State.coreDown_fixed (c : Nat) (reason : Nat) : (s.coreDown c reason).fixed = s.fixed := by
  unfold State.coreDown
  dsimp only
  split <;> simp
@[simp] theorem State.coreDown_ok (c : Nat) (reason : Nat) (hs : s.logged.ok) : (s.coreDown c reason).logged.ok := by
  unfold State.coreDown
  dsimp only
  split <;> simp [hs]
@[simp] theorem State.coreCut_fixed (c : Nat) : (s.coreCut c).fixed = s.fixed := by unfold State.coreCut; split <;> simp
@[simp] theorem State.coreCut_logged (c : Nat) : (s.coreCut c).logged = s.logged := by unfold State.coreCut; split <;> simp
@[simp] theorem State.clearTrace_fixed : s.clearTrace.fixed = s.fixed := rfl
@[simp] theorem State.clearTrace_ok (hs : s.logged.ok) : s.clearTrace.logged.ok := ⟨rfl, hs.2⟩
@[simp] theorem State.planPower_fixed : s.planPower.fixed = s.fixed := rfl
@[simp] theorem State.planPower_logged : s.planPower.logged = s.logged := rfl
@[simp] theorem State.switchLanes_fixed (d : DieId) (g : Nat) (on : Bool) : (s.switchLanes d g on).fixed = s.fixed := by
  unfold State.switchLanes
  simp [fixed_foldl]
@[simp] theorem State.switchLanes_ok (d : DieId) (g : Nat) (on : Bool) (hs : s.logged.ok) : (s.switchLanes d g on).logged.ok := by
  unfold State.switchLanes
  dsimp only
  split
  · exact ok_foldl (fun _ _ h => by split <;> simp [h]) _ (by simp [hs])
  · exact ok_foldl (fun _ _ h => by split <;> simp [h]) _ (by simp [hs])
@[simp] theorem State.clearFc4_ok (hs : s.logged.ok) : s.clearFc4.logged.ok := ⟨hs.1, fun _ h => absurd h (List.not_mem_nil)⟩
@[simp] theorem State.setStage_fixed (st : Stage) : (s.setStage st).fixed = s.fixed := rfl
@[simp] theorem State.setStage_logged (st : Stage) : (s.setStage st).logged = s.logged := rfl
@[simp] theorem State.toBoot_fixed (cause : BitVec 8) : (s.toBoot cause).fixed = s.fixed := rfl
@[simp] theorem State.toBoot_logged (cause : BitVec 8) : (s.toBoot cause).logged = s.logged := rfl
@[simp] theorem State.coreDomain_ok (c : Nat) (on : Bool) (hs : s.logged.ok) : (s.coreDomain c on).logged.ok := by
  unfold State.coreDomain
  dsimp only
  repeat' split
  all_goals simp [hs]
@[simp] theorem State.domainBOff_ok (c : BayId) (hs : s.logged.ok) : (s.domainBOff c).logged.ok := by
  unfold State.domainBOff
  rw [State.modBay_logged]
  exact ok_foldl (fun _ _ h => by simp [h]) _ hs
@[simp] theorem State.domainChanged_ok (k : Nat) (on : Bool) (hs : s.logged.ok) : (s.domainChanged k on).logged.ok := by
  unfold State.domainChanged
  dsimp only
  have hp : ({ s with pow := { s.pow with domains := setBit s.pow.domains k on } } : State).logged.ok := by simpa using hs
  revert hp
  generalize ({ s with pow := { s.pow with domains := setBit s.pow.domains k on } } : State) = t
  intro hp
  repeat' split
  all_goals simp [hp]
@[simp] theorem State.dropSteps_fixed (p : Nat → Bool) : (s.dropSteps p).fixed = s.fixed := rfl
@[simp] theorem State.dropSteps_logged (p : Nat → Bool) : (s.dropSteps p).logged = s.logged := rfl
@[simp] theorem State.dropPlan_fixed : s.dropPlan.fixed = s.fixed := by unfold State.dropPlan; split <;> simp
@[simp] theorem State.dropPlan_logged : s.dropPlan.logged = s.logged := by unfold State.dropPlan; split <;> simp
@[simp] theorem State.raiseLost_fixed (d : DieId) (row : Nat) (e : Nat × BitVec 4) : (s.raiseLost d row e).fixed = s.fixed := by
  simp [State.raiseLost]
@[simp] theorem State.raiseLost_ok (d : DieId) (row : Nat) (e : Nat × BitVec 4) (hs : s.logged.ok) :
    (s.raiseLost d row e).logged.ok := by
  simp [State.raiseLost, hs]
@[simp] theorem State.dieLost_fixed (d : DieId) : (s.dieLost d).fixed = s.fixed := by
  unfold State.dieLost
  simp [fixed_foldl]
@[simp] theorem State.dieLost_ok (d : DieId) (hs : s.logged.ok) : (s.dieLost d).logged.ok := by
  unfold State.dieLost
  dsimp only
  rw [logged_mk]
  change (State.logged _).ok
  rw [State.setDie_logged]
  refine ok_foldl (fun _ _ h => by simp [h]) _ (State.raiseDie_ok _ _ _ _ _ _ _ ?_)
  simp only [logged_mk, logged_eta, State.dropSteps_logged]
  exact ok_foldl (fun _ _ h => State.failLink_ok _ _ _ _ h) _ hs
@[simp] theorem State.enterT3_fixed (reason : Option Nat) : (s.enterT3 reason).fixed = s.fixed := by
  unfold State.enterT3
  dsimp only
  simp only [State.setStage_fixed, fixed_mk, fixed_eta]
  rw [fixed_foldl (fun _ _ => by simp), fixed_foldl (fun _ _ => by split <;> simp), fixed_foldl (fun _ _ => by split <;> simp)]
@[simp] theorem State.enterT3_ok (reason : Option Nat) (hs : s.logged.ok) : (s.enterT3 reason).logged.ok := by
  unfold State.enterT3
  dsimp only
  simp only [State.setStage_logged, logged_mk, logged_eta]
  rw [logged_foldl (fun _ _ => by simp)]
  refine ok_foldl (fun _ _ h => by split <;> simp [h]) _ ?_
  exact ok_foldl (fun _ _ h => by split <;> simp [h]) _ hs
@[simp] theorem State.reopenPart_fixed (d : DieId) (p : Nat) (keepAlias : Bool) :
    (s.reopenPart d p keepAlias).fixed = s.fixed := by
  simp [State.reopenPart]
@[simp] theorem State.reopenPart_logged (d : DieId) (p : Nat) (keepAlias : Bool) :
    (s.reopenPart d p keepAlias).logged = s.logged := by
  simp [State.reopenPart]
@[simp] theorem State.queueTo_fixed (d : DieId) (h : Held) : (s.queueTo d h).fixed = s.fixed := by simp [State.queueTo]
@[simp] theorem State.queueTo_logged (d : DieId) (h : Held) : (s.queueTo d h).logged = s.logged := by simp [State.queueTo]
@[simp] theorem State.routeByDst_fixed (d : DieId) (h : Held) : (s.routeByDst d h).fixed = s.fixed := by
  unfold State.routeByDst
  dsimp only
  repeat' split
  all_goals simp
@[simp] theorem State.routeByDst_logged (d : DieId) (h : Held) : (s.routeByDst d h).logged = s.logged := by
  unfold State.routeByDst
  dsimp only
  repeat' split
  all_goals simp
@[simp] theorem State.routeCircuit_fixed (d : DieId) (h : Held) : (s.routeCircuit d h).fixed = s.fixed := by
  simp [State.routeCircuit]
@[simp] theorem State.routeCircuit_logged (d : DieId) (h : Held) : (s.routeCircuit d h).logged = s.logged := by
  simp [State.routeCircuit]
@[simp] theorem State.routeRequest_fixed (d : DieId) (h : Held) : (s.routeRequest d h).fixed = s.fixed := by
  unfold State.routeRequest
  dsimp only
  repeat' split
  all_goals simp
@[simp] theorem State.routeRequest_logged (d : DieId) (h : Held) : (s.routeRequest d h).logged = s.logged := by
  unfold State.routeRequest
  dsimp only
  repeat' split
  all_goals simp
@[simp] theorem State.route_fixed (d : DieId) (h : Held) : (s.route d h).fixed = s.fixed := by simp [State.route]
@[simp] theorem State.route_logged (d : DieId) (h : Held) : (s.route d h).logged = s.logged := by simp [State.route]

/-! ### Requests -/

theorem State.serveAlloc_keeps (f : Frame) (part die : Byte) (bad : Bool) (act : Die → Except Status Die) :
    Keeps s (s.serveAlloc f part die bad act) := by
  refine State.serveDie_keeps _ f part die bad fun d t => ?_
  dsimp only
  split
  · exact (dieAct_keeps _ _ _ _ act d t).trans (.same (State.planPower_fixed ..) (State.planPower_logged ..))
  · exact dieAct_keeps _ _ _ _ act d t

theorem State.servePorts_keeps (f : Frame) (part die port : Byte) (act : Die → Except Status Die) :
    Keeps s (s.servePorts f part die port act) := by
  refine State.serveDie_keeps _ f part die _ fun d t => ?_
  dsimp only
  split
  · exact .refl t
  · exact dieAct_keeps _ _ _ _ act d t

theorem State.serveRange_keeps (f : Frame) (part mask seqId : Byte) (first : BitVec 32) (count : BitVec 16)
    (walk : Die → BitVec 128 → Nat → Die × Nat) : Keeps s (s.serveRange f part mask seqId first count walk) := by
  unfold State.serveRange
  refine State.serveMaskWith_keeps _ f part mask _ _ _ fun d t => ?_
  dsimp only
  split
  · exact .same (by rw [State.traceDieWrite_fixed, State.setDie_fixed]) (by rw [State.traceDieWrite_logged, State.setDie_logged])
  · exact .same (State.traceDieWrite_fixed ..) (State.traceDieWrite_logged ..)

theorem State.partAct_keeps (op : Nat) {act : DieId → State → State × Status} (h : ∀ d t, Keeps t (act d t).1) (d : DieId) (t : State) :
    Keeps t (State.partAct op act d t).1 := (h d t).trans (.same (State.traceDieWrite_fixed ..) (State.traceDieWrite_logged ..))

end Sys2Proof.Machine
end

