-- ==== Sys2Proof/Laws/KeptCmds.lean ====
section
/-! SUPPORT. What the operations of the command files keep of a state (Laws/Kept.lean), and the relation `Steady` between a state and the
next one that every command keeps but the few that name the token epoch or its claims. -/

namespace Sys2Proof.Machine

variable {s : State}

@[simp] theorem State.relayUp_fixed (d : DieId) (p : Nat) (k : PourKey) (part : BitVec 4) (rank home cap : Nat)
    (data : List Byte) (last mark : Bool) :
    (s.relayUp d p k part rank home cap data last mark).fixed = s.fixed := by
  unfold State.relayUp
  dsimp only
  repeat' split
  all_goals simp
@[simp] theorem State.relayUp_logged (d : DieId) (p : Nat) (k : PourKey) (part : BitVec 4) (rank home cap : Nat)
    (data : List Byte) (last mark : Bool) :
    (s.relayUp d p k part rank home cap data last mark).logged = s.logged := by
  unfold State.relayUp
  dsimp only
  repeat' split
  all_goals simp
@[simp] theorem State.lateContribution_fixed (d : DieId) (h : Hdr) (k : PourKey) (r : AbortRec) (rank : Nat) :
    (s.lateContribution d h k r rank).fixed = s.fixed := by
  simp [State.lateContribution]
@[simp] theorem State.lateContribution_logged (d : DieId) (h : Hdr) (k : PourKey) (r : AbortRec) (rank : Nat) :
    (s.lateContribution d h k r rank).logged = s.logged := by
  simp [State.lateContribution]
@[simp] theorem State.contribute_fixed (d : DieId) (p : Nat) (h : Hdr) (data : List Byte) (w : Option Parked) :
    (s.contribute d p h data w).fixed = s.fixed := by
  unfold State.contribute
  try dsimp only
  repeat' split
  all_goals simp
@[simp] theorem State.contribute_logged (d : DieId) (p : Nat) (h : Hdr) (data : List Byte) (w : Option Parked) :
    (s.contribute d p h data w).logged = s.logged := by
  unfold State.contribute
  try dsimp only
  repeat' split
  all_goals simp
@[simp] theorem State.stage1_fixed (d : DieId) (q : Pour) : (s.stage1 d q).fixed = s.fixed := by
  unfold State.stage1
  dsimp only
  repeat' split
  all_goals simp
@[simp] theorem State.stage1_logged (d : DieId) (q : Pour) : (s.stage1 d q).logged = s.logged := by
  unfold State.stage1
  dsimp only
  repeat' split
  all_goals simp
@[simp] theorem State.stage2_fixed (d : DieId) (q : Pour) : (s.stage2 d q).fixed = s.fixed := by simp [State.stage2]
@[simp] theorem State.stage2_logged (d : DieId) (q : Pour) : (s.stage2 d q).logged = s.logged := by simp [State.stage2]
@[simp] theorem State.stage3_fixed (d : DieId) (q : Pour) : (s.stage3 d q).fixed = s.fixed := by simp [State.stage3]
@[simp] theorem State.stage3_logged (d : DieId) (q : Pour) : (s.stage3 d q).logged = s.logged := by simp [State.stage3]
@[simp] theorem State.deliver4_fixed (d : DieId) (q : Pour) : (s.deliver4 d q).fixed = s.fixed := by
  unfold State.deliver4
  dsimp only
  rw [State.modDie_fixed, fixed_foldl (fun _ _ => by split <;> simp), State.modDie_fixed]
@[simp] theorem State.deliver4_logged (d : DieId) (q : Pour) : (s.deliver4 d q).logged = s.logged := by
  unfold State.deliver4
  dsimp only
  rw [State.modDie_logged, logged_foldl (fun _ _ => by split <;> simp), State.modDie_logged]
@[simp] theorem State.runStage_fixed (d : DieId) (q : Pour) : (s.runStage d q).fixed = s.fixed := by
  unfold State.runStage; split <;> simp
@[simp] theorem State.runStage_logged (d : DieId) (q : Pour) : (s.runStage d q).logged = s.logged := by
  unfold State.runStage; split <;> simp
@[simp] theorem State.startStage_fixed (d : DieId) (k : PourKey) (pl : Place) (slot : Nat) :
    (s.startStage d k pl slot).fixed = s.fixed := by
  unfold State.startStage
  dsimp only
  repeat' split
  all_goals simp
@[simp] theorem State.startStage_logged (d : DieId) (k : PourKey) (pl : Place) (slot : Nat) :
    (s.startStage d k pl slot).logged = s.logged := by
  unfold State.startStage
  dsimp only
  repeat' split
  all_goals simp
@[simp] theorem State.relayedResult_fixed (d : DieId) (k : PourKey) (part : BitVec 4) (rank : Nat) (bytes : List Byte)
    (mark : Bool) :
    (s.relayedResult d k part rank bytes mark).fixed = s.fixed := by
  unfold State.relayedResult
  dsimp only
  repeat' split
  all_goals simp
@[simp] theorem State.relayedResult_logged (d : DieId) (k : PourKey) (part : BitVec 4) (rank : Nat) (bytes : List Byte)
    (mark : Bool) :
    (s.relayedResult d k part rank bytes mark).logged = s.logged := by
  unfold State.relayedResult
  dsimp only
  repeat' split
  all_goals simp
@[simp] theorem State.relayDown_fixed (d : DieId) (k : PourKey) (part : BitVec 4) (hd : BlendHead) (data : List Byte)
    (mark : Bool) :
    (s.relayDown d k part hd data mark).fixed = s.fixed := by
  simp [State.relayDown]
@[simp] theorem State.relayDown_logged (d : DieId) (k : PourKey) (part : BitVec 4) (hd : BlendHead) (data : List Byte)
    (mark : Bool) :
    (s.relayDown d k part hd data mark).logged = s.logged := by
  simp [State.relayDown]
@[simp] theorem State.lateRelay_fixed (d : DieId) (k : PourKey) (part : BitVec 4) (h : Hdr) (hd : BlendHead) (r : AbortRec) :
    (s.lateRelay d k part h hd r).fixed = s.fixed := by
  unfold State.lateRelay
  try dsimp only
  repeat' split
  all_goals simp
@[simp] theorem State.lateRelay_logged (d : DieId) (k : PourKey) (part : BitVec 4) (h : Hdr) (hd : BlendHead) (r : AbortRec) :
    (s.lateRelay d k part h hd r).logged = s.logged := by
  unfold State.lateRelay
  try dsimp only
  repeat' split
  all_goals simp
@[simp] theorem State.abortIn_fixed (d : DieId) (k : PourKey) (h : Hdr) (status : BitVec 4) :
    (s.abortIn d k h status).fixed = s.fixed := by
  unfold State.abortIn
  try dsimp only
  repeat' split
  all_goals simp
@[simp] theorem State.abortIn_logged (d : DieId) (k : PourKey) (h : Hdr) (status : BitVec 4) :
    (s.abortIn d k h status).logged = s.logged := by
  unfold State.abortIn
  try dsimp only
  repeat' split
  all_goals simp
@[simp] theorem State.settleAborts_fixed (d : DieId) :
    (s.settleAborts d).fixed = s.fixed := by
  unfold State.settleAborts
  dsimp only
  split
  · rfl
  · rw [fixed_foldl (fun _ _ => by split <;> simp), State.modDie_fixed]
@[simp] theorem State.settleAborts_logged (d : DieId) :
    (s.settleAborts d).logged = s.logged := by
  unfold State.settleAborts
  dsimp only
  split
  · rfl
  · rw [logged_foldl (fun _ _ => by split <;> simp), State.modDie_logged]
@[simp] theorem State.blendIn_fixed (d : DieId) (p : Nat) (h : Hdr) (hd : BlendHead) (data : List Byte) (w : Option Parked) :
    (s.blendIn d p h hd data w).fixed = s.fixed := by
  unfold State.blendIn
  try dsimp only
  repeat' split
  all_goals simp
@[simp] theorem State.blendIn_logged (d : DieId) (p : Nat) (h : Hdr) (hd : BlendHead) (data : List Byte) (w : Option Parked) :
    (s.blendIn d p h hd data w).logged = s.logged := by
  unfold State.blendIn
  try dsimp only
  repeat' split
  all_goals simp
@[simp] theorem State.emitBlocks_fixed (d : DieId) (p : Nat) (n : BitVec 16) (l : List TxBlock) :
    (s.emitBlocks d p n l).fixed = s.fixed := by
  induction l generalizing s n with
  | nil => rfl
  | cons b l ih =>
    unfold State.emitBlocks
    dsimp only
    split <;> simp [ih]
@[simp] theorem State.emitBlocks_logged (d : DieId) (p : Nat) (n : BitVec 16) (l : List TxBlock) :
    (s.emitBlocks d p n l).logged = s.logged := by
  induction l generalizing s n with
  | nil => rfl
  | cons b l ih =>
    unfold State.emitBlocks
    dsimp only
    split <;> simp [ih]
@[simp] theorem State.pump_fixed (d : DieId) (p : Nat) :
    (s.pump d p).fixed = s.fixed := by
  unfold State.pump
  try dsimp only
  repeat' split
  all_goals simp
@[simp] theorem State.pump_logged (d : DieId) (p : Nat) :
    (s.pump d p).logged = s.logged := by
  unfold State.pump
  try dsimp only
  repeat' split
  all_goals simp
@[simp] theorem State.replay_fixed (d : DieId) (p : Nat) (seq : BitVec 16) :
    (s.replay d p seq).fixed = s.fixed := by
  unfold State.replay
  try dsimp only
  repeat' split
  all_goals simp
@[simp] theorem State.replay_logged (d : DieId) (p : Nat) (seq : BitVec 16) :
    (s.replay d p seq).logged = s.logged := by
  unfold State.replay
  try dsimp only
  repeat' split
  all_goals simp
@[simp] theorem State.transmit_fixed (d : DieId) (p t : Nat) (h : Held) :
    (s.transmit d p t h).fixed = s.fixed := by
  unfold State.transmit
  try dsimp only
  repeat' split
  all_goals simp
@[simp] theorem State.transmit_logged (d : DieId) (p t : Nat) (h : Held) :
    (s.transmit d p t h).logged = s.logged := by
  unfold State.transmit
  try dsimp only
  repeat' split
  all_goals simp
@[simp] theorem State.sendInSlot_fixed (d : DieId) (p slot : Nat) (h : Held) : (s.sendInSlot d p slot h).fixed = s.fixed := by
  simp [State.sendInSlot]
@[simp] theorem State.sendInSlot_logged (d : DieId) (p slot : Nat) (h : Held) : (s.sendInSlot d p slot h).logged = s.logged := by
  simp [State.sendInSlot]
@[simp] theorem State.slotStart_fixed (d : DieId) (p slot : Nat) : (s.slotStart d p slot).fixed = s.fixed := by
  unfold State.slotStart
  dsimp only
  repeat' split
  all_goals simp
@[simp] theorem State.slotStart_logged (d : DieId) (p slot : Nat) : (s.slotStart d p slot).logged = s.logged := by
  unfold State.slotStart
  dsimp only
  repeat' split
  all_goals simp
@[simp] theorem State.select_fixed (d : DieId) (p t : Nat) : (s.select d p t).fixed = s.fixed := by
  unfold State.select
  dsimp only
  repeat' split
  all_goals simp
@[simp] theorem State.select_logged (d : DieId) (p t : Nat) : (s.select d p t).logged = s.logged := by
  unfold State.select
  dsimp only
  repeat' split
  all_goals simp
@[simp] theorem State.cutThrough_fixed (before : State) (d : DieId) (p t id : Nat) :
    (s.cutThrough before d p t id).fixed = s.fixed := by
  unfold State.cutThrough
  try dsimp only
  repeat' split
  all_goals simp
@[simp] theorem State.cutThrough_logged (before : State) (d : DieId) (p t id : Nat) :
    (s.cutThrough before d p t id).logged = s.logged := by
  unfold State.cutThrough
  try dsimp only
  repeat' split
  all_goals simp
@[simp] theorem State.ingressDrop_fixed (d : DieId) (p : Nat) (h : Hdr) (check : Nat) :
    (s.ingressDrop d p h check).fixed = s.fixed := by
  simp [State.ingressDrop]
@[simp] theorem State.ingressDrop_logged (d : DieId) (p : Nat) (h : Hdr) (check : Nat) :
    (s.ingressDrop d p h check).logged = s.logged := by
  simp [State.ingressDrop]
@[simp] theorem State.checkBridges_fixed (d : DieId) (k : PourKey) : (s.checkBridges d k).fixed = s.fixed := by
  simp [State.checkBridges]
@[simp] theorem State.checkBridges_logged (d : DieId) (k : PourKey) : (s.checkBridges d k).logged = s.logged := by
  simp [State.checkBridges]
@[simp] theorem State.firstInput_fixed (t : State) (d : DieId) (k : PourKey) : (s.firstInput t d k).fixed = t.fixed := by
  unfold State.firstInput
  split <;> simp
@[simp] theorem State.firstInput_logged (t : State) (d : DieId) (k : PourKey) : (s.firstInput t d k).logged = t.logged := by
  unfold State.firstInput
  split <;> simp
@[simp] theorem State.takeCollective_fixed (d : DieId) (h : Held) :
    (s.takeCollective d h).fixed = s.fixed := by
  unfold State.takeCollective
  try dsimp only
  repeat' split
  all_goals simp
@[simp] theorem State.takeCollective_logged (d : DieId) (h : Held) :
    (s.takeCollective d h).logged = s.logged := by
  unfold State.takeCollective
  try dsimp only
  repeat' split
  all_goals simp
@[simp] theorem State.toFc4_fixed (d : DieId) (h : Held) :
    (s.toFc4 d h).fixed = s.fixed := by
  unfold State.toFc4
  try dsimp only
  repeat' split
  all_goals simp
@[simp] theorem State.toFc4_logged (d : DieId) (h : Held) :
    (s.toFc4 d h).logged = s.logged := by
  unfold State.toFc4
  try dsimp only
  repeat' split
  all_goals simp
@[simp] theorem State.goOn_fixed (d : DieId) (h : Held) :
    (s.goOn d h).fixed = s.fixed := by
  unfold State.goOn
  try dsimp only
  repeat' split
  all_goals simp
@[simp] theorem State.goOn_logged (d : DieId) (h : Held) :
    (s.goOn d h).logged = s.logged := by
  unfold State.goOn
  try dsimp only
  repeat' split
  all_goals simp
@[simp] theorem State.takeIn_fixed (d : DieId) (p : Nat) (h : Hdr) (data : List Byte) (t : Nat) :
    (s.takeIn d p h data t).fixed = s.fixed := by
  unfold State.takeIn
  try dsimp only
  repeat' split
  all_goals simp
@[simp] theorem State.takeIn_ok (d : DieId) (p : Nat) (h : Hdr) (data : List Byte) (t : Nat) (hs : s.logged.ok) :
    (s.takeIn d p h data t).logged.ok := by
  unfold State.takeIn
  try dsimp only
  repeat' split
  all_goals simp [hs]
@[simp] theorem State.accept_fixed (d : DieId) (p : Nat) (h : Hdr) (data : List Byte) (t : Nat) :
    (s.accept d p h data t).fixed = s.fixed := by
  unfold State.accept
  try dsimp only
  repeat' split
  all_goals simp
@[simp] theorem State.accept_ok (d : DieId) (p : Nat) (h : Hdr) (data : List Byte) (t : Nat) (hs : s.logged.ok) :
    (s.accept d p h data t).logged.ok := by
  unfold State.accept
  try dsimp only
  repeat' split
  all_goals simp [hs]
@[simp] theorem State.arrive_fixed (d : DieId) (p : PortId) (w : BitVec 256) (data : List Byte) (t : Nat) :
    (s.arrive d p w data t).fixed = s.fixed := by
  unfold State.arrive
  try dsimp only
  repeat' split
  all_goals simp
@[simp] theorem State.arrive_ok (d : DieId) (p : PortId) (w : BitVec 256) (data : List Byte) (t : Nat) (hs : s.logged.ok) :
    (s.arrive d p w data t).logged.ok := by
  unfold State.arrive
  try dsimp only
  repeat' split
  all_goals simp [hs]
@[simp] theorem State.admitOne_fixed (m : Mail) :
    (s.admitOne m).fixed = s.fixed := by
  unfold State.admitOne
  try dsimp only
  repeat' split
  all_goals simp
@[simp] theorem State.admitOne_logged (m : Mail) :
    (s.admitOne m).logged = s.logged := by
  unfold State.admitOne
  try dsimp only
  repeat' split
  all_goals simp
@[simp] theorem State.admitMail_fixed (d : DieId) :
    (s.admitMail d).fixed = s.fixed := by
  unfold State.admitMail
  exact fixed_foldl (fun _ _ => by split <;> simp) _ _
@[simp] theorem State.admitMail_logged (d : DieId) :
    (s.admitMail d).logged = s.logged := by
  unfold State.admitMail
  exact logged_foldl (fun _ _ => by split <;> simp) _ _
@[simp] theorem State.sendLoop_fixed (d : DieId) :
    (s.sendLoop d).fixed = s.fixed := by
  unfold State.sendLoop
  try dsimp only
  repeat' split
  all_goals simp
@[simp] theorem State.sendLoop_logged (d : DieId) :
    (s.sendLoop d).logged = s.logged := by
  unfold State.sendLoop
  try dsimp only
  repeat' split
  all_goals simp
@[simp] theorem State.setWidths_fixed (narrow : Bool) : (s.setWidths narrow).fixed = s.fixed := by
  unfold State.setWidths
  simp [fixed_foldl]
@[simp] theorem State.setWidths_logged (narrow : Bool) : (s.setWidths narrow).logged = s.logged := by
  unfold State.setWidths
  simp [logged_foldl]
@[simp] theorem State.moveTo_fixed (dest : BitVec 2) (cause : BitVec 8) : (s.moveTo dest cause).fixed = s.fixed := by
  simp [State.moveTo]
@[simp] theorem State.moveTo_logged (dest : BitVec 2) (cause : BitVec 8) : (s.moveTo dest cause).logged = s.logged := by
  simp [State.moveTo]
@[simp] theorem State.makeStep_ok (e : PwrStep) (rest : List PwrStep) (credit : Nat) (hs : s.logged.ok) :
    (s.makeStep e rest credit).logged.ok := by
  unfold State.makeStep
  dsimp only
  split
  · exact State.domainChanged_ok _ _ (by simpa using hs)
  · simpa using hs
@[simp] theorem State.startTimer_fixed (k n : Nat) : (s.startTimer k n).fixed = s.fixed := rfl
@[simp] theorem State.startTimer_logged (k n : Nat) : (s.startTimer k n).logged = s.logged := rfl
@[simp] theorem State.beginShutdown_ok (n : Nat) (hs : s.logged.ok) : (s.beginShutdown n).logged.ok := by
  unfold State.beginShutdown
  dsimp only
  split
  · exact hs
  · split
    · split
      · exact hs
      · exact hs
    · exact State.raiseTray_ok _ _ _ (by simpa using hs)
@[simp] theorem State.senseOne_ok (r : Sensors) (n : Nat) (l : Levels) (hs : s.logged.ok) : (s.senseOne r n l).logged.ok := by
  unfold State.senseOne
  extract_lets c started p t0 g t1 p1 t2 t3
  have h1 : t1.logged.ok := by
    unfold t1
    split
    · exact State.raiseTray_ok _ _ _ hs
    · exact hs
  have h3 : t3.logged.ok := by
    unfold t3
    split
    · split
      · exact h1
      · exact State.raiseTray_ok _ _ _ h1
    · exact h1
  split
  · exact State.beginShutdown_ok _ h3
  · exact h3
@[simp] theorem State.spreadClaim_fixed (d : DieId) (w : CtlWord) (except : Option Nat) :
    (s.spreadClaim d w except).fixed = s.fixed := by
  unfold State.spreadClaim
  exact fixed_foldl (fun _ _ => by simp) _ _
@[simp] theorem State.spreadClaim_logged (d : DieId) (w : CtlWord) (except : Option Nat) :
    (s.spreadClaim d w except).logged = s.logged := by
  unfold State.spreadClaim
  exact logged_foldl (fun _ _ => by simp) _ _
@[simp] theorem State.beginFrame_fixed (d : DieId) (p : Nat) :
    (s.beginFrame d p).fixed = s.fixed := by
  unfold State.beginFrame
  dsimp only
  split
  · rfl
  · rw [State.pump_fixed, State.modDie_fixed, fixed_foldl (fun _ _ => State.emit_fixed _), State.emit_fixed]
@[simp] theorem State.beginFrame_logged (d : DieId) (p : Nat) :
    (s.beginFrame d p).logged = s.logged := by
  unfold State.beginFrame
  dsimp only
  split
  · rfl
  · rw [State.pump_logged, State.modDie_logged, logged_foldl (fun _ _ => State.emit_logged _), State.emit_logged]
@[simp] theorem State.moveParent_ok (d : DieId) (hs : s.logged.ok) : (s.moveParent d).logged.ok := by
  unfold State.moveParent
  dsimp only
  repeat' split
  all_goals simp [hs]
@[simp] theorem State.xoffWithheld_fixed (d : DieId) : (s.xoffWithheld d).fixed = s.fixed := by
  unfold State.xoffWithheld
  simp [fixed_foldl]
@[simp] theorem State.xoffWithheld_logged (d : DieId) : (s.xoffWithheld d).logged = s.logged := by
  unfold State.xoffWithheld
  simp [logged_foldl]
@[simp] theorem State.resumeHeld_fixed (d : DieId) :
    (s.resumeHeld d).fixed = s.fixed := by
  unfold State.resumeHeld
  dsimp only
  split
  · rfl
  · rw [fixed_foldl (fun _ _ => by simp)]
    simp
@[simp] theorem State.resumeHeld_logged (d : DieId) :
    (s.resumeHeld d).logged = s.logged := by
  unfold State.resumeHeld
  dsimp only
  split
  · rfl
  · rw [logged_foldl (fun _ _ => by simp)]
    simp
@[simp] theorem State.dropUnassigned_fixed (d : DieId) : (s.dropUnassigned d).fixed = s.fixed := by simp [State.dropUnassigned]
@[simp] theorem State.dropUnassigned_logged (d : DieId) : (s.dropUnassigned d).logged = s.logged := by simp [State.dropUnassigned]
@[simp] theorem State.dieBoundary_ok (d : DieId) (hs : s.logged.ok) : (s.dieBoundary d).logged.ok := by
  unfold State.dieBoundary
  dsimp only
  have h1 := State.moveParent_ok d (s := s.modDie d Die.advance) (by simpa using hs)
  rw [State.modDie_logged, State.admitMail_logged, State.settleAborts_logged, State.dropUnassigned_logged, State.resumeHeld_logged,
    State.grant_logged, State.xoffWithheld_logged, logged_foldl (fun _ _ => State.beginFrame_logged ..), State.modDie_logged]
  split
  · rw [State.planPower_logged]
    exact h1
  · exact h1
@[simp] theorem State.fc4Boundary_fixed : s.fc4Boundary.fixed = s.fixed := by simp [State.fc4Boundary]
@[simp] theorem State.fc4Boundary_ok (hs : s.logged.ok) : s.fc4Boundary.logged.ok := by
  unfold State.fc4Boundary
  rw [State.tickFpsm_logged]
  exact ok_foldl (fun _ _ h => by simp [h]) _ hs
@[simp] theorem State.checkQuota_fixed (d : DieId) (part vc p : Nat) : (s.checkQuota d part vc p).fixed = s.fixed := by
  simp [State.checkQuota]
@[simp] theorem State.checkQuota_ok (d : DieId) (part vc p : Nat) (hs : s.logged.ok) : (s.checkQuota d part vc p).logged.ok := by
  unfold State.checkQuota
  dsimp only
  repeat' split
  all_goals simp [hs]
@[simp] theorem State.raiseBay_fixed (op : Nat) (c : BayId) (cause : Byte) (more : List Byte) :
    (s.raiseBay op c cause more).fixed = s.fixed := by
  simp [State.raiseBay]
@[simp] theorem State.raiseBay_ok (op : Nat) (c : BayId) (cause : Byte) (more : List Byte) (hs : s.logged.ok) :
    (s.raiseBay op c cause more).logged.ok := by
  simp [State.raiseBay, hs]
@[simp] theorem State.recheckBay_fixed (c : BayId) :
    (s.recheckBay c).fixed = s.fixed := by
  unfold State.recheckBay
  try dsimp only
  repeat' split
  all_goals simp
@[simp] theorem State.recheckBay_ok (c : BayId) (hs : s.logged.ok) :
    (s.recheckBay c).logged.ok := by
  unfold State.recheckBay
  dsimp only
  split
  · exact State.raiseBay_ok _ _ _ _ hs
  · exact hs
@[simp] theorem State.markBay_fixed (c : BayId) (m : Bool) :
    (s.markBay c m).fixed = s.fixed := by simp [State.markBay]
@[simp] theorem State.markBay_logged (c : BayId) (m : Bool) :
    (s.markBay c m).logged = s.logged := by simp [State.markBay]
@[simp] theorem State.dropSlot_fixed (k : Nat) : (s.dropSlot k).fixed = s.fixed := rfl
@[simp] theorem State.dropSlot_logged (k : Nat) : (s.dropSlot k).logged = s.logged := rfl
@[simp] theorem State.useDone_fixed (u : FuseUse) (ident : Option IdRec) : (s.useDone u ident).fixed = s.fixed := by
  unfold State.useDone
  dsimp only
  repeat' split
  all_goals simp
@[simp] theorem State.useDone_logged (u : FuseUse) (ident : Option IdRec) : (s.useDone u ident).logged = s.logged := by
  unfold State.useDone
  dsimp only
  repeat' split
  all_goals simp
@[simp] theorem State.raiseFuseDone_fixed (failed : Bool) (u : FuseUse) (seq : Nat) :
    (s.raiseFuseDone failed u seq).fixed = s.fixed := by
  simp [State.raiseFuseDone]
@[simp] theorem State.raiseFuseDone_ok (failed : Bool) (u : FuseUse) (seq : Nat) (hs : s.logged.ok) :
    (s.raiseFuseDone failed u seq).logged.ok := by
  simp [State.raiseFuseDone, hs]
@[simp] theorem State.raiseMismatch_fixed (seq : BitVec 32) : (s.raiseMismatch seq).fixed = s.fixed := by
  simp [State.raiseMismatch]
@[simp] theorem State.raiseMismatch_ok (seq : BitVec 32) (hs : s.logged.ok) : (s.raiseMismatch seq).logged.ok := by
  simp [State.raiseMismatch, hs]
@[simp] theorem State.settleIntent_ok (r : AuditRec) (hs : s.logged.ok) : (s.settleIntent r).logged.ok := by
  unfold State.settleIntent
  dsimp only
  repeat' split
  all_goals
    first
    | rw [State.audit_logged]
      simpa only [logged_mk, logged_eta] using hs
    | refine State.raiseMismatch_ok _ ?_
      rw [State.audit_logged]
      exact hs
@[simp] theorem State.checkAudit_fixed : s.checkAudit.fixed = s.fixed := by unfold State.checkAudit; split <;> simp
@[simp] theorem State.checkAudit_ok (hs : s.logged.ok) : s.checkAudit.logged.ok := by
  unfold State.checkAudit
  split
  · exact State.raiseMismatch_ok _ hs
  · split
    · exact hs
    · exact State.raiseMismatch_ok _ (by simpa only [logged_mk, logged_eta] using hs)
@[simp] theorem State.drawNonce_fixed : s.drawNonce.1.fixed = s.fixed := rfl
@[simp] theorem State.drawNonce_logged : s.drawNonce.1.logged = s.logged := rfl
@[simp] theorem State.spendNonce_fixed (f : Frame) : (s.spendNonce f).fixed = s.fixed := by simp [State.spendNonce]
@[simp] theorem State.spendNonce_logged (f : Frame) : (s.spendNonce f).logged = s.logged := by simp [State.spendNonce]
@[simp] theorem State.enterWait_fixed : s.enterWait.fixed = s.fixed := rfl
@[simp] theorem State.enterWait_logged : s.enterWait.logged = s.logged := rfl
@[simp] theorem State.checkStore_fixed : s.checkStore.fixed = s.fixed := rfl
@[simp] theorem State.checkStore_logged : s.checkStore.logged = s.logged := rfl
@[simp] theorem State.chooseIdentity_fixed : s.chooseIdentity.fixed = s.fixed := by simp [State.chooseIdentity]
@[simp] theorem State.chooseIdentity_logged : s.chooseIdentity.logged = s.logged := by simp [State.chooseIdentity]
@[simp] theorem State.degradeCabled_fixed : s.degradeCabled.fixed = s.fixed := by
  unfold State.degradeCabled
  simp [fixed_foldl]
@[simp] theorem State.degradeCabled_ok (hs : s.logged.ok) : s.degradeCabled.logged.ok := by
  unfold State.degradeCabled
  exact ok_foldl (fun _ _ h => ok_foldl (fun _ _ h => by dsimp only; split <;> simp [h]) _ h) _ hs
@[simp] theorem State.raiseEcc_fixed (d : DieId) (part vc cause : Byte) (n : Nat) :
    (s.raiseEcc d part vc cause n).fixed = s.fixed := by
  simp [State.raiseEcc]
@[simp] theorem State.raiseEcc_ok (d : DieId) (part vc cause : Byte) (n : Nat) (hs : s.logged.ok) :
    (s.raiseEcc d part vc cause n).logged.ok := by
  simp [State.raiseEcc, hs]
@[simp] theorem State.eccWait_fixed (d : DieId) (id : Nat) :
    (s.eccWait d id).fixed = s.fixed := by
  unfold State.eccWait
  try dsimp only
  repeat' split
  all_goals simp
@[simp] theorem State.eccWait_ok (d : DieId) (id : Nat) (hs : s.logged.ok) :
    (s.eccWait d id).logged.ok := by
  unfold State.eccWait
  try dsimp only
  repeat' split
  all_goals simp [hs]
@[simp] theorem State.restartCores_fixed : s.restartCores.fixed = s.fixed := by
  unfold State.restartCores
  refine fixed_foldl (fun _ _ => ?_) _ _
  dsimp only
  split <;> simp
@[simp] theorem State.restartCores_ok (hs : s.logged.ok) : s.restartCores.logged.ok := by
  unfold State.restartCores
  refine ok_foldl (fun _ _ h => ?_) _ hs
  dsimp only
  split <;> simp [h]
@[simp] theorem State.reportAgain_fixed (fault : Option (Fin 4 × BitVec 32)) : (s.reportAgain fault).fixed = s.fixed := by
  unfold State.reportAgain
  extract_lets v t1 ports t2
  have h1 : t1.fixed = s.fixed := by unfold t1; split <;> simp
  have h2 : t2.fixed = s.fixed := by
    unfold t2
    exact (fixed_foldl (fun _ _ => fixed_foldl (fun _ _ => by simp) _ _) _ _).trans h1
  split
  · simpa using h2
  · exact (fixed_foldl (fun _ _ => fixed_foldl (fun _ _ => by split <;> simp) _ _) _ _).trans h2
@[simp] theorem State.reportAgain_ok (fault : Option (Fin 4 × BitVec 32)) (hs : s.logged.ok) : (s.reportAgain fault).logged.ok := by
  unfold State.reportAgain
  extract_lets v t1 ports t2
  have h1 : t1.logged.ok := by
    unfold t1
    split
    · exact State.raiseTray_ok _ _ _ hs
    · exact State.raiseTray_ok _ _ _ hs
  have h2 : t2.logged.ok := by
    unfold t2
    exact ok_foldl (fun _ _ h => ok_foldl (fun _ _ h => State.raiseLost_ok _ _ _ (by simpa using h)) _ h) _ h1
  split
  · exact h2
  · exact ok_foldl (fun _ _ h => ok_foldl (fun _ _ h => by split <;> simp [h]) _ h) _ h2
@[simp] theorem State.extendLapse_fixed : s.extendLapse.fixed = s.fixed := by simp [State.extendLapse]
@[simp] theorem State.extendLapse_logged : s.extendLapse.logged = s.logged := by simp [State.extendLapse]
@[simp] theorem State.ackEvents_fixed (c : Nat) (seq : BitVec 32) : (s.ackEvents c seq).fixed = s.fixed := by
  simp [State.ackEvents]
@[simp] theorem State.ackEvents_ok (c : Nat) (seq : BitVec 32) (hs : s.logged.ok) : (s.ackEvents c seq).logged.ok := by
  have h1 : Logged.ok ⟨s.trace.mem, Map.put s.evs.queues c
      ((Map.lookD s.evs.queues c []).filter fun e => decide (seq.toNat < e.seq.toNat))⟩ := by
    refine ⟨hs.1, fun e he => ?_⟩
    rcases Map.put_mem _ _ _ e he with rfl | he
    · exact Nat.le_trans (List.length_filter_le _ _) (lookD_le hs c)
    · exact hs.2 e he
  unfold State.ackEvents
  dsimp only
  split
  · exact State.post_ok _ _ h1
  · exact h1
@[simp] theorem State.remapDone_fixed (part : Nat) (r : Remap) (old : BitVec 11) : (s.remapDone part r old).fixed = s.fixed := by
  simp [State.remapDone]
@[simp] theorem State.remapDone_ok (part : Nat) (r : Remap) (old : BitVec 11) (hs : s.logged.ok) :
    (s.remapDone part r old).logged.ok := by
  simp [State.remapDone, hs]
@[simp] theorem State.remapDue_fixed (d : DieId) (part : Nat) : (s.remapDue d part).fixed = s.fixed := by
  unfold State.remapDue
  dsimp only
  repeat' split
  all_goals simp
@[simp] theorem State.remapDue_ok (d : DieId) (part : Nat) (hs : s.logged.ok) : (s.remapDue d part).logged.ok := by
  unfold State.remapDue
  dsimp only
  repeat' split
  all_goals simp [hs]
@[simp] theorem State.sendNotice_fixed (n : Notice) : (s.sendNotice n).fixed = s.fixed := by
  unfold State.sendNotice
  exact fixed_foldl (fun _ _ => by simp) _ _
@[simp] theorem State.sendNotice_logged (n : Notice) : (s.sendNotice n).logged = s.logged := by
  unfold State.sendNotice
  exact logged_foldl (fun _ _ => by simp) _ _
@[simp] theorem State.readDesc_fixed : s.readDesc.fixed = s.fixed := by simp [State.readDesc]
@[simp] theorem State.readDesc_logged : s.readDesc.logged = s.logged := by simp [State.readDesc]
@[simp] theorem State.checkShrunk_fixed (d : DieId) (c : Nat) (e : BitVec 64) : (s.checkShrunk d c e).fixed = s.fixed := by
  simp [State.checkShrunk]
@[simp] theorem State.checkShrunk_ok (d : DieId) (c : Nat) (e : BitVec 64) (hs : s.logged.ok) : (s.checkShrunk d c e).logged.ok := by
  unfold State.checkShrunk
  dsimp only
  repeat' split
  all_goals simp [hs]
@[simp] theorem State.checkPortCircuits_fixed (d : DieId) (port : Nat) : (s.checkPortCircuits d port).fixed = s.fixed := by
  unfold State.checkPortCircuits
  exact fixed_foldl (fun _ _ => by simp) _ _
@[simp] theorem State.checkPortCircuits_ok (d : DieId) (port : Nat) (hs : s.logged.ok) : (s.checkPortCircuits d port).logged.ok := by
  unfold State.checkPortCircuits
  exact ok_foldl (fun _ _ h => by simp [h]) _ hs
@[simp] theorem State.beginSweep_fixed (d : DieId) (p : Nat) (q : SweepReq) : (s.beginSweep d p q).fixed = s.fixed := by
  unfold State.beginSweep
  extract_lets m first t1 t2
  rw [State.emit_fixed, State.requestSwitch_fixed]
  exact (State.modDie_fixed (s := t1) d _).trans rfl
@[simp] theorem State.beginSweep_logged (d : DieId) (p : Nat) (q : SweepReq) : (s.beginSweep d p q).logged = s.logged := by
  unfold State.beginSweep
  extract_lets m first t1 t2
  rw [State.emit_logged, State.requestSwitch_logged]
  exact (State.modDie_logged (s := t1) d _).trans rfl
@[simp] theorem State.setMsp_logged (b : Bool) (m : Msp) : (s.setMsp b m).logged = s.logged := by simp [State.setMsp]
@[simp] theorem State.rewiden_fixed (d : DieId) (p : Nat) :
    (s.rewiden d p).fixed = s.fixed := by
  unfold State.rewiden
  try dsimp only
  repeat' split
  all_goals simp
@[simp] theorem State.rewiden_logged (d : DieId) (p : Nat) :
    (s.rewiden d p).logged = s.logged := by
  unfold State.rewiden
  try dsimp only
  repeat' split
  all_goals simp
@[simp] theorem State.measure_fixed (d : DieId) (p : Nat) : (s.measure d p).fixed = s.fixed := by simp [State.measure]
@[simp] theorem State.measure_logged (d : DieId) (p : Nat) : (s.measure d p).logged = s.logged := by simp [State.measure]
@[simp] theorem State.stompOut_fixed (d : DieId) (p : Nat) :
    (s.stompOut d p).fixed = s.fixed := by
  unfold State.stompOut
  try dsimp only
  repeat' split
  all_goals simp
@[simp] theorem State.stompOut_logged (d : DieId) (p : Nat) :
    (s.stompOut d p).logged = s.logged := by
  unfold State.stompOut
  try dsimp only
  repeat' split
  all_goals simp
@[simp] theorem State.takeBlock_fixed (d : DieId) (p : PortId) (b : BitVec 256) (fill : Nat) :
    (s.takeBlock d p b fill).fixed = s.fixed := by
  unfold State.takeBlock
  try dsimp only
  repeat' split
  all_goals simp
@[simp] theorem State.takeBlock_ok (d : DieId) (p : PortId) (b : BitVec 256) (fill : Nat) (hs : s.logged.ok) :
    (s.takeBlock d p b fill).logged.ok := by
  unfold State.takeBlock
  try dsimp only
  repeat' split
  all_goals simp [hs]
@[simp] theorem State.writeReach_fixed (mask : Byte) (l : Nat) (value : BitVec 32) :
    (s.writeReach mask l value).fixed = s.fixed := by
  unfold State.writeReach
  simp [fixed_foldl]
@[simp] theorem State.writeReach_logged (mask : Byte) (l : Nat) (value : BitVec 32) :
    (s.writeReach mask l value).logged = s.logged := by
  unfold State.writeReach
  simp [logged_foldl]
@[simp] theorem State.linkReturns_fixed (d : DieId) (p : Nat) : (s.linkReturns d p).fixed = s.fixed := by simp [State.linkReturns]
@[simp] theorem State.linkReturns_logged (d : DieId) (p : Nat) : (s.linkReturns d p).logged = s.logged := by
  simp [State.linkReturns]
@[simp] theorem State.sweepLoss_fixed (d : DieId) (p i : Nat) :
    (s.sweepLoss d p i).fixed = s.fixed := by
  unfold State.sweepLoss
  try dsimp only
  repeat' split
  all_goals simp
@[simp] theorem State.sweepLoss_ok (d : DieId) (p i : Nat) (hs : s.logged.ok) :
    (s.sweepLoss d p i).logged.ok := by
  unfold State.sweepLoss
  try dsimp only
  repeat' split
  all_goals simp [hs]
@[simp] theorem State.settleBound_fixed (d : DieId) (p : Nat) :
    (s.settleBound d p).fixed = s.fixed := by
  unfold State.settleBound
  try dsimp only
  repeat' split
  all_goals simp
@[simp] theorem State.settleBound_ok (d : DieId) (p : Nat) (hs : s.logged.ok) :
    (s.settleBound d p).logged.ok := by
  unfold State.settleBound
  try dsimp only
  repeat' split
  all_goals simp [hs]
@[simp] theorem State.farWord_fixed (d : DieId) (p : Nat) (w : CtlWord) : (s.farWord d p w).fixed = s.fixed := by
  simp [State.farWord]
@[simp] theorem State.farWord_logged (d : DieId) (p : Nat) (w : CtlWord) : (s.farWord d p w).logged = s.logged := by
  simp [State.farWord]
@[simp] theorem State.takeFar_fixed (d : DieId) (p : Nat) (w : CtlWord) : (s.takeFar d p w).fixed = s.fixed := by
  simp [State.takeFar]
@[simp] theorem State.takeFar_logged (d : DieId) (p : Nat) (w : CtlWord) : (s.takeFar d p w).logged = s.logged := by
  simp [State.takeFar]
@[simp] theorem State.modSweep_fixed (q : SweepReq) (f : SweepRec → SweepRec) : (s.modSweep q f).fixed = s.fixed := rfl
@[simp] theorem State.modSweep_logged (q : SweepReq) (f : SweepRec → SweepRec) : (s.modSweep q f).logged = s.logged := rfl
@[simp] theorem State.toPoint_fixed (d : DieId) (p : Nat) (n : SweepNear) (lane point : Nat) :
    (s.toPoint d p n lane point).fixed = s.fixed := by
  simp [State.toPoint]
@[simp] theorem State.toPoint_logged (d : DieId) (p : Nat) (n : SweepNear) (lane point : Nat) :
    (s.toPoint d p n lane point).logged = s.logged := by
  simp [State.toPoint]
@[simp] theorem State.pointDone_fixed (d : DieId) (p : Nat) (n : SweepNear) (errors : BitVec 16) :
    (s.pointDone d p n errors).fixed = s.fixed := by
  unfold State.pointDone
  dsimp only
  repeat' split
  all_goals simp
@[simp] theorem State.pointDone_ok (d : DieId) (p : Nat) (n : SweepNear) (errors : BitVec 16) (hs : s.logged.ok) :
    (s.pointDone d p n errors).logged.ok := by
  unfold State.pointDone
  dsimp only
  split
  · simp [hs]
  · split
    · split <;> simp [hs]
    · rw [State.requestSwitch_logged]
      exact State.endSweep_ok _ _ _ (by simpa using hs)
@[simp] theorem State.sweepEnded_fixed (d : DieId) (p : Nat) (w : CtlWord) : (s.sweepEnded d p w).fixed = s.fixed := by
  unfold State.sweepEnded; split <;> simp
@[simp] theorem State.sweepEnded_ok (d : DieId) (p : Nat) (w : CtlWord) (hs : s.logged.ok) : (s.sweepEnded d p w).logged.ok := by
  unfold State.sweepEnded; split <;> simp [hs]

/-! ### Requests, words and transactions -/

theorem State.servePwr_keeps (f : Frame) (dest : BitVec 2) : Keeps s (s.servePwr f dest) := by
  refine State.serve_keeps _ f (.refl s) ?_
  split
  · exact .same rfl rfl
  · exact .same (by simp) (by simp)

theorem State.serveFuse_keeps (op len : Nat) (u : Bool) (f : Frame) (bad : Bool) (uses : State → Except Status (List FuseUse))
    (pend : Option (Fin 4 × BitVec 384)) : Keeps s (s.serveFuse op len u f bad uses pend) := by
  refine State.serve_keeps _ f (.refl s) ?_
  dsimp only
  repeat' split
  all_goals exact .same (by simp) (by simp)

theorem State.servePrivilege_keeps (f : Frame) (cls bit : Byte) (deny : Bool) : Keeps s (s.servePrivilege f cls bit deny) :=
  State.serveFuse_keeps ..

theorem State.serveSub_keeps (f : Frame) (part : Byte) (act : List Sub → Sub → Except Status (List Sub)) :
    Keeps s (s.serveSub f part act) := by
  refine State.serve_keeps _ f (.refl s) ?_
  split
  · split
    · exact .same rfl rfl
    · dsimp only
      generalize act _ _ = r
      cases r <;> exact .same rfl rfl
  · exact .same rfl rfl

theorem State.serveActivate_keeps (f : Frame) (now : Bool) : Keeps s (s.serveActivate f now) := by
  refine State.serve_keeps _ f (.refl s) ?_
  dsimp only
  repeat' split
  all_goals exact .same (by simp) (by simp)

theorem State.servePort_keeps (op : Nat) (f : Frame) (die port : Byte) (bad : Bool) {act : DieId → Nat → State → State × Status}
    (h : ∀ d p t, Keeps t (act d p t).1) : Keeps s (s.servePort op f die port bad act) := by
  refine State.serve_keeps _ f (.refl s) ?_
  have hf : Keeps s s.fresh := .same rfl rfl
  dsimp only
  repeat' split
  · exact hf
  · exact hf
  · exact hf.trans (h _ _ _)
  · exact hf

theorem State.serveReach_keeps (f : Frame) (change : Bool) (mask leaf : Byte) {write : State → State} (h : ∀ t, Keeps t (write t)) :
    Keeps s (s.serveReach f change mask leaf write) := by
  refine State.serve_keeps _ f (.refl s) ?_
  have hf : Keeps s s.fresh := .same rfl rfl
  split
  · exact hf
  · split
    · exact hf
    · refine hf.trans ((h _).trans (State.overDiesWith_keeps (fun d t => ?_) _ _))
      dsimp only
      split
      · exact .same (by simp) (by simp)
      · exact .refl t

/-- A received control word does no more than its act. -/
theorem State.onWord_keeps (d : DieId) (p : PortId) (w : CtlWord) (type : Nat) {act : State → State} (h : ∀ t, Keeps t (act t)) :
    Keeps s (s.onWord d p w type act) := by
  have hf : Keeps s s.fresh := .same rfl rfl
  unfold State.onWord
  dsimp only
  repeat' split
  · exact hf
  · exact hf.trans (h _)
  · exact hf.trans (.same (by simp) (by simp))

theorem State.bayEach_keeps (c : BayId) {f : State → Nat → State} (h : ∀ t p, Keeps t (f t p)) : Keeps s (s.bayEach c f) :=
  Keeps.foldl h _ s

theorem State.setMsp_keeps (b : Bool) (m : Msp) (h : m.buf = (s.msp b).buf) : Keeps s (s.setMsp b m) := by
  refine .same ?_ (State.setMsp_logged b m)
  cases b
  · exact congrArg (fun x => { s.fixed with bufA := x }) h
  · exact congrArg (fun x => { s.fixed with bufB := x }) h

/-! ### What every command keeps -/

/-- The claims that wait for the token name an epoch above the token epoch and were accepted in one tick (R407, R408). -/
def State.claimsInv (s : State) : Prop :=
  (∀ c ∈ s.tok.claims, s.tok.epoch.toNat < c.epoch.toNat) ∧ ∀ c ∈ s.tok.claims, ∀ e ∈ s.tok.claims, c.tick = e.tick

/-- A step from `s` to `t` leaves the queue and the token epoch, clears no fuse bit, and keeps waiting claims and a safe state as they
must be. -/
structure Steady (s t : State) : Prop where
  pending : t.pending = s.pending
  bits : ∀ b, s.fuse.bits.getLsbD b = true → t.fuse.bits.getLsbD b = true
  epoch : t.tok.epoch = s.tok.epoch
  claims : s.claimsInv → t.claimsInv
  safe : s.safe = true → t.safe = true

theorem Steady.refl (s : State) : Steady s s := ⟨rfl, fun _ h => h, rfl, id, id⟩

theorem Steady.trans {s t u : State} (h : Steady s t) (k : Steady t u) : Steady s u :=
  ⟨k.1.trans h.1, fun b x => k.2 b (h.2 b x), k.3.trans h.3, fun x => k.4 (h.4 x), fun x => k.5 (h.5 x)⟩

/-- What keeps the fixed part and the log is steady. -/
theorem Keeps.steady {s t : State} (h : Keeps s t) : Steady s t where
  pending := congrArg Fixed.pending h.1
  bits := fun b hb => (congrArg (fun x : Fixed => x.bits.getLsbD b) h.1).trans hb
  epoch := congrArg Fixed.epoch h.1
  claims := by
    have hc : t.tok.claims = s.tok.claims := congrArg Fixed.claims h.1
    have he : t.tok.epoch = s.tok.epoch := congrArg Fixed.epoch h.1
    unfold State.claimsInv
    rw [hc, he]
    exact id
  safe := by
    rw [safe_iff, safe_iff, h.1]
    exact fun ⟨a, b⟩ => ⟨h.2 a, b⟩

theorem Steady.foldl {α : Type} {f : State → α → State} (h : ∀ t a, Steady t (f t a)) (l : List α) (t : State) :
    Steady t (l.foldl f t) := by
  induction l generalizing t with
  | nil => exact .refl t
  | cons a l ih => exact (h t a).trans (ih _)

end Sys2Proof.Machine
end

