-- ==== Sys2Proof/Laws/Serve.lean ====
section
/-! SUPPORT. What serving a request does, said once: an answer leaves the bare state as it is, an accepted request runs the command's own
work, and a command with a die mask changes each die of the mask by itself. -/

namespace Sys2Proof.Machine

variable (s : State)

/-! ### The bare state -/

@[simp] theorem State.emit_bare (o : Out) : (s.emit o).bare = s.bare := rfl
@[simp] theorem State.fresh_bare : s.fresh.bare = s.bare := rfl
@[simp] theorem State.toLink_bare (c : Channel) (a : BitVec 144) (n : Nat) : (s.toLink c a n).bare = s.bare := rfl
@[simp] theorem State.mail_bare (m : Mail) : (s.mail m).bare = s.bare := rfl
@[simp] theorem State.mailBack_bare (f : Frame) (op : Nat) (st : Status) (p : List Byte) : (s.mailBack f op st p).bare = s.bare := by
  unfold State.mailBack; split <;> rfl
@[simp] theorem State.countFc_bare (k n : Nat) : (s.countFc k n).bare = s.bare := rfl
@[simp] theorem State.modCore_bare (c : Nat) (f : TraceCore → TraceCore) : (s.modCore c f).bare = s.bare := rfl
@[simp] theorem State.resumeCore_bare (c n : Nat) : (s.resumeCore c n).bare = s.bare := rfl

@[simp] theorem State.countLost_bare (c n : Nat) : (s.countLost c n).bare = s.bare := by
  unfold State.countLost; split <;> rfl

@[simp] theorem State.countLost_out (c n : Nat) : (s.countLost c n).out = s.out := by
  unfold State.countLost; split <;> rfl

@[simp] theorem State.countLost_tok (c n : Nat) : (s.countLost c n).tok = s.tok := by
  unfold State.countLost; split <;> rfl


/-- A trace record leaves the bare state as it is. -/
@[simp] theorem State.traceWrite_bare (c t : Nat) (p : List Byte) : (s.traceWrite c t p).bare = s.bare := by
  unfold State.traceWrite
  simp only []
  generalize (if (s.core c).cond == .sleep then s.resumed c 0 else s.core c) = k
  split
  · rfl
  · simp

@[simp] theorem State.finishMsp_bare (f : Frame) : (s.finishMsp f).bare = s.bare := by
  unfold State.finishMsp; split <;> rfl

@[simp] theorem State.endSlot_bare (f : Frame) (op : Nat) (st : Status) (p : List Byte) : (s.endSlot f op st p).bare = s.bare := by
  unfold State.endSlot
  split
  · simp only [State.finishMsp_bare]; rfl
  · rfl

/-- An answer leaves the bare state as it is. -/
@[simp] theorem State.answer_bare (f : Frame) (op : Nat) (st : Status) (p : List Byte) : (s.answer f op st p).bare = s.bare := by
  simp [State.answer]

theorem State.noteAccepted_bare (f : Frame) : (s.noteAccepted f).bare = s.bare.noteAccepted f := by
  unfold State.noteAccepted
  split
  · rfl
  · simp only []
    split
    · rfl
    · split <;> rfl

/-- Noting a request keeps bare states equal. -/
theorem State.noted_congr {s t : State} (h : t.bare = s.bare) (f : Frame) (st : Status) :
    (t.noted f st).bare = (s.noted f st).bare := by
  unfold State.noted
  split
  · rw [State.noteAccepted_bare, State.noteAccepted_bare, h]
  · exact h

/-- Equal bare states have equal dies. -/
theorem State.die_of_bare {s t : State} (h : t.bare = s.bare) (d : DieId) : t.die d = s.die d := by
  have h0 : t.q0 = s.q0 := (congrArg State.q0 h : t.bare.q0 = s.bare.q0)
  have h1 : t.q1 = s.q1 := (congrArg State.q1 h : t.bare.q1 = s.bare.q1)
  have h2 : t.q2 = s.q2 := (congrArg State.q2 h : t.bare.q2 = s.bare.q2)
  have h3 : t.q3 = s.q3 := (congrArg State.q3 h : t.bare.q3 = s.bare.q3)
  match d with | 0 => exact h0 | 1 => exact h1 | 2 => exact h2 | 3 => exact h3

theorem State.setDie_bare (d : DieId) (x : Die) : (s.setDie d x).bare = s.bare.setDie d x := by
  match d with | 0 => rfl | 1 => rfl | 2 => rfl | 3 => rfl

/-! ### What has left the tray -/

@[simp] theorem State.traceWrite_out (c t : Nat) (p : List Byte) : (s.traceWrite c t p).out = s.out := by
  unfold State.traceWrite
  simp only []
  generalize (if (s.core c).cond == .sleep then s.resumed c 0 else s.core c) = k
  split
  · rfl
  · simp

@[simp] theorem State.traceWrite_tok (c t : Nat) (p : List Byte) : (s.traceWrite c t p).tok = s.tok := by
  unfold State.traceWrite
  simp only []
  generalize (if (s.core c).cond == .sleep then s.resumed c 0 else s.core c) = k
  split
  · rfl
  · simp

@[simp] theorem State.finishMsp_out (f : Frame) : (s.finishMsp f).out = s.out := by
  unfold State.finishMsp; split <;> rfl

@[simp] theorem State.finishMsp_tok (f : Frame) : (s.finishMsp f).tok = s.tok := by
  unfold State.finishMsp; split <;> rfl

@[simp] theorem State.endSlot_out (f : Frame) (op : Nat) (st : Status) (p : List Byte) : (s.endSlot f op st p).out = s.out := by
  unfold State.endSlot
  split
  · simp
  · rfl

@[simp] theorem State.endSlot_tok (f : Frame) (op : Nat) (st : Status) (p : List Byte) : (s.endSlot f op st p).tok = s.tok := by
  unfold State.endSlot
  split
  · simp
  · rfl

@[simp] theorem State.answer_tok (f : Frame) (op : Nat) (st : Status) (p : List Byte) : (s.answer f op st p).tok = s.tok := by
  simp [State.answer]

/-- An answer sends the response, on Ethernet in its datagram, and nothing else. -/
@[simp] theorem State.answer_out (f : Frame) (op : Nat) (st : Status) (p : List Byte) :
    (s.answer f op st p).out =
      s.out ++ .resp f.chan f.slot (BitVec.ofNat 16 op) f.tag st s.tok.epoch p :: linkOut f.chan f.addr p.length := by
  simp [State.answer]

/-- The response to a request has been sent once `answer` has run. -/
theorem State.answer_answered (f : Frame) (op : Nat) (st : Status) (p : List Byte) : (s.answer f op st p).answered f op st p := by
  simp [State.answered]

@[simp] theorem State.noteAccepted_out (f : Frame) : (s.noteAccepted f).out = s.out := by
  unfold State.noteAccepted
  split
  · rfl
  · simp only []
    split
    · rfl
    · split <;> rfl

@[simp] theorem State.noteAccepted_epoch (f : Frame) : (s.noteAccepted f).tok.epoch = s.tok.epoch := by
  unfold State.noteAccepted
  split
  · rfl
  · simp only []
    split
    · rfl
    · split <;> rfl

/-! ### Serving -/

/-- The end of an accepted request: the answer of the command's own work. -/
def State.conclude (f : Frame) (op : Nat) (r : State × Reply) : State :=
  match r with
  | (t, .now st payload) => (if st = .ok ∨ st = .accepted then t.noteAccepted f else t).answer f op st payload
  | (t, .later) => t.noteAccepted f

/-- An accepted request runs the command's own work on the fresh state and answers what that work answers. -/
theorem State.serve_accepted {s : State} {c : Cmd} {f : Frame} (body : State → State × Reply) (h : s.accepts c f = true) :
    s.serve c f body = State.conclude f c.op (body s.fresh) := by
  replace h : s.fresh.accepts c f = true := h
  simp only [State.accepts, Bool.and_eq_true, Option.isNone_iff_eq_none, beq_iff_eq] at h
  obtain ⟨⟨⟨⟨⟨⟨h1, h2⟩, h3⟩, h4⟩, h5⟩, h6⟩, h7⟩ := h
  unfold State.serve
  simp only [h1, h2, h3, h4, h5, h6, h7, Bool.not_true, ne_eq, not_true_eq_false, if_false, Bool.false_eq_true]
  rfl

/-- A request whose work answers at once: the response is sent, and beside it the state is what the work has left, the request
noted. -/
theorem State.conclude_now {f : Frame} {op : Nat} {t : State} {st : Status} {p : List Byte} :
    (State.conclude f op (t, .now st p)).bare = (t.noted f st).bare ∧ (State.conclude f op (t, .now st p)).answered f op st p := by
  refine ⟨?_, ?_⟩
  · unfold State.conclude State.noted
    simp
  · unfold State.conclude State.answered
    simp

/-- An accepted request whose work answers `st` and leaves `u`, but for what serving writes. -/
theorem answers_of_body {s u : State} {c : Cmd} {f : Frame} {body : State → State × Reply} {t : State} {st : Status}
    {p : List Byte} (h : s.accepts c f = true) (hb : body s.fresh = (t, .now st p)) (hu : t.bare = u.bare) :
    Answers (.next (s.serve c f body)) u f c.op st p := by
  refine ⟨_, rfl, ?_, ?_⟩ <;> rw [State.serve_accepted body h, hb]
  · exact State.conclude_now.1.trans (State.noted_congr hu f st)
  · exact State.conclude_now.2

/-- What an accepted read answers, and that it leaves everything else. -/
theorem serveRead_answers {s : State} {c : Cmd} {f : Frame} (read : State → Status × List Byte) (h : s.accepts c f = true) :
    Answers (done (s.serveRead c f read)) s f c.op (read s.fresh).1 (read s.fresh).2 :=
  answers_of_body h rfl rfl

/-! ### Commands with a die mask -/

@[simp] theorem State.traceDieWrite_bare (d : DieId) (a b c n : Nat) (st : Status) : (s.traceDieWrite d a b c n st).bare = s.bare := by
  simp [State.traceDieWrite]

@[simp] theorem State.traceDieWrite_die (e d : DieId) (a b c n : Nat) (st : Status) :
    (s.traceDieWrite d a b c n st).die e = s.die e := State.die_of_bare (by simp) e

@[simp] theorem State.traceDieWrite_out (d : DieId) (a b c n : Nat) (st : Status) : (s.traceDieWrite d a b c n st).out = s.out := by
  simp [State.traceDieWrite]

theorem dieAct_bare (op a b c : Nat) (act : Die → Except Status Die) (d : DieId) :
    (dieAct op a b c act d s).1.bare = (s.setDie d (match act (s.die d) with | .ok y => y | .error _ => s.die d)).bare ∧
      (dieAct op a b c act d s).2 = (match act (s.die d) with | .ok _ => .ok | .error st => st) := by
  unfold dieAct
  cases h : act (s.die d) <;> simp

/-- Equal bare states stay equal under a change of a die. -/
theorem State.setDie_bare_congr {s t : State} (h : t.bare = s.bare) (d : DieId) (x : Die) :
    (t.setDie d x).bare = (s.setDie d x).bare := by
  rw [State.setDie_bare, State.setDie_bare, h]

/-- One die of a mask at a time: what `dieAct` leaves of the tray is `maskDie` of that die. -/
theorem overOne_bare {s : State} {acc : State × List Status × List Unit} (h : acc.1.bare = s.bare) (op a b c : Nat) (mask : Byte)
    (act : DieId → Die → Except Status Die) (d : DieId) :
    (overOne mask () (fun d t => ((dieAct op a b c (act d) d t).1, (dieAct op a b c (act d) d t).2, ())) acc d).1.bare =
      (s.setDie d (maskDie mask (act d) d (s.die d))).bare ∧
    (overOne mask () (fun d t => ((dieAct op a b c (act d) d t).1, (dieAct op a b c (act d) d t).2, ())) acc d).2.1 =
      acc.2.1 ++ [maskStatus mask (act d) d (s.die d)] := by
  have hd := State.die_of_bare h d
  unfold maskDie maskStatus overOne
  rw [hd]
  by_cases hm : mask.getLsbD d.val <;> by_cases ho : (s.die d).on
  · have := dieAct_bare acc.1 op a b c (act d) d
    rw [hd] at this
    simp only [hm, ho, Bool.and_self, if_true]
    exact ⟨this.1.trans (State.setDie_bare_congr h d _), congrArg (fun st => acc.2.1 ++ [st]) this.2⟩
  all_goals simp [hm, ho, h]

/-- A write over a die mask: each die becomes `maskDie` of what it was, and its status is `maskStatus`. -/
theorem overDies_bare (op a b c : Nat) (mask : Byte) (act : DieId → Die → Except Status Die) :
    (s.overDies mask fun d => dieAct op a b c (act d) d).1.bare =
        ({ s with q0 := maskDie mask (act 0) 0 s.q0, q1 := maskDie mask (act 1) 1 s.q1,
                  q2 := maskDie mask (act 2) 2 s.q2, q3 := maskDie mask (act 3) 3 s.q3 } : State).bare ∧
      (s.overDies mask fun d => dieAct op a b c (act d) d).2 =
        allDieIds.map fun d => maskStatus mask (act d) d (s.die d) := by
  unfold State.overDies State.overDiesWith
  simp only [allDieIds, List.foldl]
  have h0 := overOne_bare (s := s) (acc := (s, [], [])) rfl op a b c mask act 0
  have h1 := overOne_bare h0.1 op a b c mask act 1
  have h2 := overOne_bare h1.1 op a b c mask act 2
  have h3 := overOne_bare h2.1 op a b c mask act 3
  exact ⟨h3.1, by rw [h3.2, h2.2, h1.2, h0.2]; rfl⟩

/-- A request whose work is one write over a die mask. -/
theorem serveMask_answers {s : State} {c : Cmd} {f : Frame} {part mask : Byte} {bad : Bool} (op a b n : Nat)
    (act : DieId → Die → Except Status Die) (h : s.accepts { c with part := some part } f = true)
    (hp : part.toNat ≤ 15) (hb : bad = false) (hm : badMask mask = false) :
    Answers (done (s.serveMask c f part mask bad fun d => dieAct op a b n (act d) d))
      { s with q0 := maskDie mask (act 0) 0 s.q0, q1 := maskDie mask (act 1) 1 s.q1,
               q2 := maskDie mask (act 2) 2 s.q2, q3 := maskDie mask (act 3) 3 s.q3 } f c.op .ok
      (dieResult (allDieIds.map fun d => maskStatus mask (act d) d (s.die d))) := by
  have ho := overDies_bare s.fresh op a b n mask act
  have hn : ¬ (15 < part.toNat) := by omega
  unfold State.serveMask State.serveMaskWith
  refine answers_of_body (t := (s.fresh.overDies mask fun d => dieAct op a b n (act d) d).1) h ?_ ho.1
  simp only [hb, hm, hn, decide_false, Bool.or_self, Bool.false_eq_true, if_false, List.append_nil]
  rw [show allDieIds.map (fun d => maskStatus mask (act d) d (s.die d)) =
      allDieIds.map (fun d => maskStatus mask (act d) d (s.fresh.die d)) from rfl, ← ho.2]
  rfl

/-- A write over a die mask that every powered die of the mask accepts. -/
theorem serveMask_onMask {s : State} {c : Cmd} {f : Frame} {part mask : Byte} {bad : Bool} (op a b n : Nat)
    (act : DieId → Die → Except Status Die) (g : DieId → Die → Die) (h : s.accepts { c with part := some part } f = true)
    (hp : part.toNat ≤ 15) (hb : bad = false) (hm : badMask mask = false)
    (hg : ∀ d, s.reached mask d = true → act d (s.die d) = .ok (g d (s.die d))) :
    Answers (done (s.serveMask c f part mask bad fun d => dieAct op a b n (act d) d)) (s.onMask mask g) f c.op .ok
      (s.maskOk mask) := by
  have hd (d : DieId) : maskDie mask (act d) d (s.die d) = if s.reached mask d then g d (s.die d) else s.die d := by
    unfold maskDie
    by_cases hr : s.reached mask d = true
    · rw [hg d hr]; simp [State.reached] at hr; simp [State.reached, hr]
    · simp only [hr, Bool.false_eq_true, if_false]; unfold State.reached at hr; simp [hr]
  have hs (d : DieId) : maskStatus mask (act d) d (s.die d) = if mask.getLsbD d.val && !(s.die d).on then .dieOff else .ok := by
    unfold maskStatus
    by_cases hr : s.reached mask d = true
    · rw [hg d hr]; simp [State.reached] at hr; simp [hr]
    · unfold State.reached at hr
      by_cases h1 : mask.getLsbD d.val <;> by_cases h2 : (s.die d).on <;> simp_all
  have := serveMask_answers (s := s) (bad := bad) op a b n act h hp hb hm
  simp only [hs] at this
  have e :
      ({ s with
        q0 := maskDie mask (act 0) 0 s.q0, q1 := maskDie mask (act 1) 1 s.q1,
        q2 := maskDie mask (act 2) 2 s.q2, q3 := maskDie mask (act 3) 3 s.q3 } : State) = s.onMask mask g := by
    unfold State.onMask
    have h0 := hd 0; have h1 := hd 1; have h2 := hd 2; have h3 := hd 3
    simp only [State.die] at h0 h1 h2 h3
    simp only [h0, h1, h2, h3, State.die]
  rw [e] at this
  exact this

end Sys2Proof.Machine
end

