-- ==== Sys2Proof/Laws/Request.lean ====
section
/-! SUPPORT. Every request is served in one way: `exec` runs `serve` with the command that the request carries. -/

namespace Sys2Proof.Machine

variable (s : State)

theorem serveMaskWith_serve {α : Type} (c : Cmd) (f : Frame) (p m : Byte) (bad : Bool) (no : α)
    (act : DieId → State → State × Status × α) (more : State → List α → List Byte) :
    ∃ body, s.serveMaskWith c f p m bad no act more = s.serve { c with part := some p } f body := ⟨_, rfl⟩

theorem serveMask_serve (c : Cmd) (f : Frame) (p m : Byte) (bad : Bool) (act : DieId → State → State × Status) :
    ∃ body, s.serveMask c f p m bad act = s.serve { c with part := some p } f body := serveMaskWith_serve s _ _ _ _ _ _ _ _

theorem serveDie_serve (c : Cmd) (f : Frame) (p die : Byte) (bad : Bool) (act : DieId → State → State × Status × List Byte) :
    ∃ body, s.serveDie c f p die bad act = s.serve { c with part := some p } f body := ⟨_, rfl⟩

theorem serveAlloc_serve (f : Frame) (p die : Byte) (bad : Bool) (act : Die → Except Status Die) :
    ∃ body, s.serveAlloc f p die bad act = s.serve { op := 0x0503, change := true, len := 12, part := some p } f body :=
  serveDie_serve s _ _ _ _ _ _

theorem servePorts_serve (f : Frame) (p die port : Byte) (act : Die → Except Status Die) :
    ∃ body, s.servePorts f p die port act = s.serve { op := 0x0504, change := true, len := 4, part := some p } f body :=
  serveDie_serve s _ _ _ _ _ _

theorem serveRange_serve (f : Frame) (p m q : Byte) (a : BitVec 32) (n : BitVec 16) (walk : Die → BitVec 128 → Nat → Die × Nat) :
    ∃ body, s.serveRange f p m q a n walk =
      s.serve { op := 0x0803, change := true, cap := some 2, len := 16, part := some p } f body := by
  unfold State.serveRange; exact serveMaskWith_serve s _ _ _ _ _ _ _ _

theorem next_serve {s : State} {f : Frame} {c : Cmd} {t : State} (h : ∃ body, t = s.serve c f body) :
    ∃ body, (Host.Outcome.next t : Host.Outcome State Fault Refusal) = .next (s.serve c f body) :=
  h.imp fun _ e => congrArg _ e

/-- Every request is served: `exec` runs `serve` with the command that the request carries. -/
theorem exec_request {s : State} {i : Instr} {f : Frame} {c : Cmd} (h : s.request i = some (f, c)) :
    ∃ body, exec i s = .next ((s.presented i).serve c f body) := by
  cases i <;> simp only [State.request, Option.some.injEq, Prod.mk.injEq, reduceCtorEq] at h <;> obtain ⟨rfl, rfl⟩ := h <;>
    simp only [State.presented, exec, execIdRead, execIdCaddy, execIdWrite, execIdIdentify, execBootStatus, execBootReady, execTickConfig,
      execTickStatus, execLinkStatus, execLinkConfigHold, execLinkConfigRelease, execLinkConfigDisable,
      execLinkRetrainWiden, execLinkRetrainFull, execLinkRetrainNarrow, execLinkPortmap, execLinkSweep,
      execLinkSweepResult, execRouteConfig, execRouteStage, execRouteSeal, execRouteDiscard, execRouteFlip,
      execRouteStatus, execRouteRead, execRouteOwner, execRouteReachRead, execRouteReachWrite, execPartOpen,
      execPartClose, execPartGrantSeg, execPartReturnSeg, execPartDirRange, execPartPortsAssign,
      execPartPortsUnassign, execPartRestart, execPartConfig, execPartStatus, execPartQuiesce, execPartResume,
      execMgrNonce, execMgrKey, execMgrClaim, execMgrBeat, execMgrRelease, execMgrStatus, execGrpOpen, execGrpClose,
      execGrpStatus, execCircSetup, execCircRenew, execCircRelease, execCircRead, execDirSeq, execDirWrite,
      execDirRangeRefresh, execDirRangeEvict, execDirRead, execCongConfig, execPwrStateT0, execPwrStateT1,
      execPwrStateT2, execPwrStateT3, execPwrRamp, execPwrStatus, execFaultRemap, execFaultAlias, execCtrRead,
      execTraceRead, execDiagRead, execDiagWrite, execDiagLoop, execEvtAck, execEvtSubscribe, execEvtUnsubscribe,
      execFuseRead, execFuseKeyProgram, execFuseKeyRevoke, execFuseRollbackAdvance, execFusePrivilegeGrant,
      execFusePrivilegeDeny, execFuseDebugUnlock, execFuseDebugLock, execFuseAudit, execFwWrite, execFwVerify,
      execFwActivateNextReset, execFwActivateNow, execFwStatus, done, State.servePrivilege, State.serveFuse] <;>
    with_reducible first
    | exact next_serve (serveMask_serve s _ _ _ _ _ _)
    | exact next_serve (serveDie_serve s _ _ _ _ _ _)
    | exact next_serve (serveMaskWith_serve s _ _ _ _ _ _ _ _)
    | exact next_serve (serveAlloc_serve s _ _ _ _ _)
    | exact next_serve (servePorts_serve s _ _ _ _ _)
    | exact next_serve (serveRange_serve s _ _ _ _ _ _ _)
    | exact ⟨_, rfl⟩

end Sys2Proof.Machine
end

