-- ==== Sys2Proof/Laws/Steps.lean ====
section
/-! SUPPORT. One lemma per meaning, for the meanings that keep all that `Keeps` names: it answers a next state from every state, and what
that next state keeps. There is none here for the packet commands, for those that write the token, the tick or the claims, and for some with
several effects in a row. -/

namespace Sys2Proof.Machine

variable {s : State}

theorem execIdRead_keeps (f : Frame) :
    ∃ t, execIdRead f s = .next t ∧ Keeps s t := by
  unfold execIdRead done
  exact ⟨_, rfl, State.serveRead_keeps ..⟩

theorem execIdCaddy_keeps (f : Frame) (bay : Byte) :
    ∃ t, execIdCaddy f bay s = .next t ∧ Keeps s t := by
  unfold execIdCaddy done
  exact ⟨_, rfl, State.serveRead_keeps ..⟩

theorem execIdWrite_keeps (f : Frame) (role rack slot : Byte) :
    ∃ t, execIdWrite f role rack slot s = .next t ∧ Keeps s t := by
  unfold execIdWrite done
  refine ⟨_, rfl, State.serve_keeps _ _ (.refl s) ?_⟩
  dsimp only
  repeat' split
  all_goals exact ⟨by simp, fun hs => by simp [hs]⟩

theorem execIdIdentify_keeps (f : Frame) (identify : Byte) :
    ∃ t, execIdIdentify f identify s = .next t ∧ Keeps s t := by
  unfold execIdIdentify done
  refine ⟨_, rfl, State.serve_keeps _ _ (.refl s) ?_⟩
  dsimp only
  repeat' split
  all_goals exact ⟨by simp, fun hs => by simp [hs]⟩

theorem execBootStatus_keeps (f : Frame) :
    ∃ t, execBootStatus f s = .next t ∧ Keeps s t := by
  unfold execBootStatus done
  exact ⟨_, rfl, State.serveRead_keeps ..⟩

theorem execBootReady_keeps (f : Frame) :
    ∃ t, execBootReady f s = .next t ∧ Keeps s t := by
  unfold execBootReady done
  exact ⟨_, rfl, State.serve_keeps _ _ (.refl s) ⟨by simp, fun hs => by simp [hs]⟩⟩

theorem execTickConfig_keeps (f : Frame) (priority period : Byte) :
    ∃ t, execTickConfig f priority period s = .next t ∧ Keeps s t := by
  unfold execTickConfig done
  refine ⟨_, rfl, State.serve_keeps _ _ (.refl s) ?_⟩
  dsimp only
  repeat' split
  all_goals exact ⟨by simp, fun hs => by simp [hs]⟩

theorem execTickStatus_keeps (f : Frame) :
    ∃ t, execTickStatus f s = .next t ∧ Keeps s t := by
  unfold execTickStatus done
  exact ⟨_, rfl, State.serveRead_keeps ..⟩

theorem execMarkerMissing_keeps (d : DieId) (p : PortId) :
    ∃ t, execMarkerMissing d p s = .next t ∧ Keeps s t := by
  unfold execMarkerMissing done
  exact ⟨_, rfl, ⟨by simp, fun hs => by simp [hs]⟩⟩

theorem execReparentWaitEnd_keeps (d : DieId) :
    ∃ t, execReparentWaitEnd d s = .next t ∧ Keeps s t := by
  unfold execReparentWaitEnd done
  refine ⟨_, rfl, ?_⟩
  split <;> exact ⟨by simp, fun hs => by simp [hs]⟩

theorem execTickLock_keeps (d : DieId) :
    ∃ t, execTickLock d s = .next t ∧ Keeps s t := by
  unfold execTickLock done
  exact ⟨_, rfl, ⟨by simp, fun hs => by simp [hs]⟩⟩

theorem execCoreSleep_keeps (core : Fin 4) :
    ∃ t, execCoreSleep core s = .next t ∧ Keeps s t := by
  unfold execCoreSleep done
  exact ⟨_, rfl, ⟨by simp, fun hs => by simp [hs]⟩⟩

theorem execTraceSync_keeps :
    ∃ t, execTraceSync s = .next t ∧ Keeps s t := by
  unfold execTraceSync done
  exact ⟨_, rfl, ⟨by simp, fun hs => by simp [hs]⟩⟩

theorem execPartOpen_keeps (f : Frame) (part mask : Byte) :
    ∃ t, execPartOpen f part mask s = .next t ∧ Keeps s t := by
  unfold execPartOpen done
  refine ⟨_, rfl, State.serveMask_keeps _ _ _ _ _ (State.partAct_keeps _ fun d t => ?_)⟩
  repeat' split
  all_goals exact ⟨by simp, fun hs => by simp [hs]⟩

theorem execPartRestart_keeps (f : Frame) (part mask : Byte) :
    ∃ t, execPartRestart f part mask s = .next t ∧ Keeps s t := by
  unfold execPartRestart done
  refine ⟨_, rfl, State.serveMask_keeps _ _ _ _ _ (State.partAct_keeps _ fun d t => ?_)⟩
  repeat' split
  all_goals exact ⟨by simp, fun hs => by simp [hs]⟩

theorem execPartClose_keeps (f : Frame) (part mask : Byte) :
    ∃ t, execPartClose f part mask s = .next t ∧ Keeps s t := by
  unfold execPartClose done
  refine ⟨_, rfl, State.serveMask_keeps _ _ _ _ _ (State.partAct_keeps _ fun d t => ?_)⟩
  dsimp only
  repeat' split
  all_goals exact ⟨by simp, fun hs => by simp [hs]⟩

theorem execPartGrantSeg_keeps (f : Frame) (part die seg : Byte) :
    ∃ t, execPartGrantSeg f part die seg s = .next t ∧ Keeps s t := by
  unfold execPartGrantSeg done
  exact ⟨_, rfl, State.serveAlloc_keeps ..⟩

theorem execPartReturnSeg_keeps (f : Frame) (part die seg : Byte) :
    ∃ t, execPartReturnSeg f part die seg s = .next t ∧ Keeps s t := by
  unfold execPartReturnSeg done
  exact ⟨_, rfl, State.serveAlloc_keeps ..⟩

theorem execPartDirRange_keeps (f : Frame) (part die : Byte) (base size : BitVec 32) :
    ∃ t, execPartDirRange f part die base size s = .next t ∧ Keeps s t := by
  unfold execPartDirRange done
  exact ⟨_, rfl, State.serveAlloc_keeps ..⟩

theorem execPartPortsAssign_keeps (f : Frame) (part die port : Byte) :
    ∃ t, execPartPortsAssign f part die port s = .next t ∧ Keeps s t := by
  unfold execPartPortsAssign done
  exact ⟨_, rfl, State.servePorts_keeps ..⟩

theorem execPartPortsUnassign_keeps (f : Frame) (part die port : Byte) :
    ∃ t, execPartPortsUnassign f part die port s = .next t ∧ Keeps s t := by
  unfold execPartPortsUnassign done
  exact ⟨_, rfl, State.servePorts_keeps ..⟩

theorem execPartConfig_keeps (f : Frame) (part mask setMask mode failMode circCap : Byte) (shares : BitVec 64) (lease : BitVec 32) :
    ∃ t, execPartConfig f part mask setMask mode failMode circCap shares lease s = .next t ∧ Keeps s t := by
  unfold execPartConfig done
  refine ⟨_, rfl, State.serveMask_keeps _ _ _ _ _ (State.partAct_keeps _ fun d t => ?_)⟩
  dsimp only
  repeat' split
  all_goals exact ⟨by simp, fun hs => by simp [hs]⟩

theorem execPartStatus_keeps (f : Frame) (part : Byte) :
    ∃ t, execPartStatus f part s = .next t ∧ Keeps s t := by
  unfold execPartStatus done
  exact ⟨_, rfl, State.serveRead_keeps ..⟩

theorem execPartQuiesce_keeps (f : Frame) (part mask vcMask : Byte) :
    ∃ t, execPartQuiesce f part mask vcMask s = .next t ∧ Keeps s t := by
  unfold execPartQuiesce done
  exact ⟨_, rfl, State.serveMask_keeps _ _ _ _ _ fun _ _ => dieAct_keeps ..⟩

theorem execPartResume_keeps (f : Frame) (part mask vcMask : Byte) :
    ∃ t, execPartResume f part mask vcMask s = .next t ∧ Keeps s t := by
  unfold execPartResume done
  exact ⟨_, rfl, State.serveMask_keeps _ _ _ _ _ fun _ _ => dieAct_keeps ..⟩

theorem execDirSeq_keeps (f : Frame) (part mask seqId : Byte) (desc : BitVec 128) :
    ∃ t, execDirSeq f part mask seqId desc s = .next t ∧ Keeps s t := by
  unfold execDirSeq done
  exact ⟨_, rfl, State.serveMask_keeps _ _ _ _ _ fun _ _ => dieAct_keeps ..⟩

theorem execDirWrite_keeps (f : Frame) (part mask : Byte) (recs : List DirRec) :
    ∃ t, execDirWrite f part mask recs s = .next t ∧ Keeps s t := by
  unfold execDirWrite done
  refine ⟨_, rfl, State.serveMaskWith_keeps _ _ _ _ _ _ _ fun d t => ?_⟩
  dsimp only
  repeat' split
  all_goals exact ⟨by simp, fun hs => by simp [hs]⟩

theorem execDirRangeRefresh_keeps (f : Frame) (part mask seqId : Byte) (first : BitVec 32) (count : BitVec 16) (age : BitVec 32) :
    ∃ t, execDirRangeRefresh f part mask seqId first count age s = .next t ∧ Keeps s t := by
  unfold execDirRangeRefresh done
  exact ⟨_, rfl, State.serveRange_keeps ..⟩

theorem execDirRangeEvict_keeps (f : Frame) (part mask seqId : Byte) (first : BitVec 32) (count : BitVec 16) :
    ∃ t, execDirRangeEvict f part mask seqId first count s = .next t ∧ Keeps s t := by
  unfold execDirRangeEvict done
  exact ⟨_, rfl, State.serveRange_keeps ..⟩

theorem execDirRead_keeps (f : Frame) (part die seqId : Byte) (first : BitVec 32) (count : BitVec 16) :
    ∃ t, execDirRead f part die seqId first count s = .next t ∧ Keeps s t := by
  unfold execDirRead done
  refine ⟨_, rfl, State.serve_keeps _ _ (.refl s) ?_⟩
  dsimp only
  repeat' split
  all_goals exact ⟨by simp, fun hs => by simp [hs]⟩

theorem execPwrStateT0_keeps (f : Frame) :
    ∃ t, execPwrStateT0 f s = .next t ∧ Keeps s t := by
  unfold execPwrStateT0 done
  exact ⟨_, rfl, State.serve_keeps _ _ (.refl s) ⟨by simp, fun hs => by simp [hs]⟩⟩

theorem execPwrStateT1_keeps (f : Frame) :
    ∃ t, execPwrStateT1 f s = .next t ∧ Keeps s t := by
  unfold execPwrStateT1 done
  exact ⟨_, rfl, State.serve_keeps _ _ (.refl s) ⟨by simp, fun hs => by simp [hs]⟩⟩

theorem execPwrStateT2_keeps (f : Frame) :
    ∃ t, execPwrStateT2 f s = .next t ∧ Keeps s t := by
  unfold execPwrStateT2 done
  refine ⟨_, rfl, State.serve_keeps _ _ (.refl s) ?_⟩
  split <;> exact ⟨by simp, fun hs => by simp [hs]⟩

theorem execPwrStateT3_keeps (f : Frame) :
    ∃ t, execPwrStateT3 f s = .next t ∧ Keeps s t := by
  unfold execPwrStateT3 done
  refine ⟨_, rfl, State.serve_keeps _ _ (.refl s) ?_⟩
  split <;> exact ⟨by simp, fun hs => by simp [hs]⟩

theorem execPwrRamp_keeps (f : Frame) (rackLimit : BitVec 32) (trayShare paceShare : BitVec 16) :
    ∃ t, execPwrRamp f rackLimit trayShare paceShare s = .next t ∧ Keeps s t := by
  unfold execPwrRamp done
  refine ⟨_, rfl, State.serve_keeps _ _ (.refl s) ?_⟩
  split <;> exact ⟨by simp, fun hs => by simp [hs]⟩

theorem execPwrStatus_keeps (f : Frame) :
    ∃ t, execPwrStatus f s = .next t ∧ Keeps s t := by
  unfold execPwrStatus done
  exact ⟨_, rfl, State.serveRead_keeps ..⟩

theorem execInputSwitchClose_keeps :
    ∃ t, execInputSwitchClose s = .next t ∧ Keeps s t := by
  unfold execInputSwitchClose done
  refine ⟨_, rfl, ?_⟩
  split <;> exact ⟨by simp, fun hs => by simp [hs]⟩

theorem execWake_keeps (_b : Bool) :
    ∃ t, execWake _b s = .next t ∧ Keeps s t := by
  unfold execWake done
  exact ⟨_, rfl, ⟨by simp, fun hs => by simp [hs]⟩⟩

theorem execXonIdleRevoke_keeps (d : DieId) (p : PortId) (part : BitVec 4) (vc : BitVec 3) :
    ∃ t, execXonIdleRevoke d p part vc s = .next t ∧ Keeps s t := by
  unfold execXonIdleRevoke done
  exact ⟨_, rfl, ⟨by simp, fun hs => by simp [hs]⟩⟩

theorem execThrottleEngage_keeps (d : DieId) (p : PortId) (part : BitVec 4) (vc : BitVec 3) :
    ∃ t, execThrottleEngage d p part vc s = .next t ∧ Keeps s t := by
  unfold execThrottleEngage done
  refine ⟨_, rfl, ?_⟩
  dsimp only
  repeat' split
  all_goals exact ⟨by simp, fun hs => by simp [hs]⟩

theorem execThrottleEnd_keeps (d : DieId) (p : PortId) (part : BitVec 4) (vc : BitVec 3) :
    ∃ t, execThrottleEnd d p part vc s = .next t ∧ Keeps s t := by
  unfold execThrottleEnd done
  refine ⟨_, rfl, ?_⟩
  split <;> exact ⟨by simp, fun hs => by simp [hs]⟩

theorem execOversubWindowEnd_keeps (d : DieId) :
    ∃ t, execOversubWindowEnd d s = .next t ∧ Keeps s t := by
  unfold execOversubWindowEnd done
  refine ⟨_, rfl, ?_⟩
  dsimp only
  split
  · split
    · exact .same rfl rfl
    · exact Keeps.trans (.same (by simp) (by simp)) (Keeps.foldl (fun _ _ => ⟨by simp, fun h => by simp [h]⟩) _ _)
  · exact .same rfl rfl

theorem execLeaseExpiry_keeps (_d : DieId) (_circuit : BitVec 12) :
    ∃ t, execLeaseExpiry _d _circuit s = .next t ∧ Keeps s t := by
  unfold execLeaseExpiry done
  exact ⟨_, rfl, ⟨by simp, fun hs => by simp [hs]⟩⟩

theorem execGapTimeout_keeps (d : DieId) (part : BitVec 4) (src dst : BitVec 11) :
    ∃ t, execGapTimeout d part src dst s = .next t ∧ Keeps s t := by
  unfold execGapTimeout done
  exact ⟨_, rfl, ⟨by simp, fun hs => by simp [hs]⟩⟩

theorem execDrainedEntry_keeps (d : DieId) (part : BitVec 4) (vc : BitVec 3) :
    ∃ t, execDrainedEntry d part vc s = .next t ∧ Keeps s t := by
  unfold execDrainedEntry done
  exact ⟨_, rfl, ⟨by simp, fun hs => by simp [hs]⟩⟩

theorem execFuseRead_keeps (f : Frame) :
    ∃ t, execFuseRead f s = .next t ∧ Keeps s t := by
  unfold execFuseRead done
  exact ⟨_, rfl, State.serveRead_keeps ..⟩

theorem execFuseKeyProgram_keeps (f : Frame) (slot : Byte) (hash : BitVec 384) :
    ∃ t, execFuseKeyProgram f slot hash s = .next t ∧ Keeps s t := by
  unfold execFuseKeyProgram done
  refine ⟨_, rfl, State.serve_keeps _ _ (.refl s) ?_⟩
  dsimp only
  repeat' split
  all_goals exact ⟨by simp, fun hs => by simp [hs]⟩

theorem execFuseKeyRevoke_keeps (f : Frame) (slot : Byte) :
    ∃ t, execFuseKeyRevoke f slot s = .next t ∧ Keeps s t := by
  unfold execFuseKeyRevoke done
  refine ⟨_, rfl, State.serve_keeps _ _ (.refl s) ?_⟩
  dsimp only
  repeat' split
  all_goals exact ⟨by simp, fun hs => by simp [hs]⟩

theorem execFuseRollbackAdvance_keeps (f : Frame) (floor : Byte) :
    ∃ t, execFuseRollbackAdvance f floor s = .next t ∧ Keeps s t := by
  unfold execFuseRollbackAdvance done
  refine ⟨_, rfl, State.serve_keeps _ _ (.refl s) ?_⟩
  dsimp only
  repeat' split
  all_goals exact ⟨by simp, fun hs => by simp [hs]⟩

theorem execFusePrivilegeGrant_keeps (f : Frame) (cls bit : Byte) :
    ∃ t, execFusePrivilegeGrant f cls bit s = .next t ∧ Keeps s t := by
  unfold execFusePrivilegeGrant done
  refine ⟨_, rfl, State.serve_keeps _ _ (.refl s) ?_⟩
  dsimp only
  repeat' split
  all_goals exact ⟨by simp, fun hs => by simp [hs]⟩

theorem execFusePrivilegeDeny_keeps (f : Frame) (cls bit : Byte) :
    ∃ t, execFusePrivilegeDeny f cls bit s = .next t ∧ Keeps s t := by
  unfold execFusePrivilegeDeny done
  refine ⟨_, rfl, State.serve_keeps _ _ (.refl s) ?_⟩
  dsimp only
  repeat' split
  all_goals exact ⟨by simp, fun hs => by simp [hs]⟩

theorem execFuseDebugUnlock_keeps (f : Frame) :
    ∃ t, execFuseDebugUnlock f s = .next t ∧ Keeps s t := by
  unfold execFuseDebugUnlock done
  refine ⟨_, rfl, State.serve_keeps _ _ (.refl s) ?_⟩
  dsimp only
  repeat' split
  all_goals exact ⟨by simp, fun hs => by simp [hs]⟩

theorem execFuseDebugLock_keeps (f : Frame) :
    ∃ t, execFuseDebugLock f s = .next t ∧ Keeps s t := by
  unfold execFuseDebugLock done
  refine ⟨_, rfl, State.serve_keeps _ _ (.refl s) ?_⟩
  dsimp only
  repeat' split
  all_goals exact ⟨by simp, fun hs => by simp [hs]⟩

theorem execFuseAudit_keeps (f : Frame) (first count : BitVec 16) :
    ∃ t, execFuseAudit f first count s = .next t ∧ Keeps s t := by
  unfold execFuseAudit done
  exact ⟨_, rfl, State.serveRead_keeps ..⟩

theorem execMgrNonce_keeps (f : Frame) :
    ∃ t, execMgrNonce f s = .next t ∧ Keeps s t := by
  unfold execMgrNonce done
  exact ⟨_, rfl, State.serve_keeps _ _ (.refl s) ⟨by simp, fun hs => by simp [hs]⟩⟩

theorem execMgrBeat_keeps (f : Frame) :
    ∃ t, execMgrBeat f s = .next t ∧ Keeps s t := by
  unfold execMgrBeat done
  exact ⟨_, rfl, State.serve_keeps _ _ (.refl s) ⟨by simp, fun hs => by simp [hs]⟩⟩

theorem execMgrRelease_keeps (f : Frame) :
    ∃ t, execMgrRelease f s = .next t ∧ Keeps s t := by
  unfold execMgrRelease done
  exact ⟨_, rfl, State.serve_keeps _ _ (.refl s) ⟨by simp, fun hs => by simp [hs]⟩⟩

theorem execMgrStatus_keeps (f : Frame) :
    ∃ t, execMgrStatus f s = .next t ∧ Keeps s t := by
  unfold execMgrStatus done
  exact ⟨_, rfl, State.serveRead_keeps ..⟩

theorem execDieCorePowerGood_keeps (d : DieId) :
    ∃ t, execDieCorePowerGood d s = .next t ∧ Keeps s t := by
  unfold execDieCorePowerGood done
  exact ⟨_, rfl, ⟨by simp, fun hs => by simp [hs]⟩⟩

theorem execWatchdogExpiry_keeps (core : Fin 4) (code : BitVec 32) :
    ∃ t, execWatchdogExpiry core code s = .next t ∧ Keeps s t := by
  unfold execWatchdogExpiry done
  exact ⟨_, rfl, ⟨by simp, fun hs => by simp [hs]⟩⟩

theorem execTokenLapse_keeps :
    ∃ t, execTokenLapse s = .next t ∧ Keeps s t := by
  unfold execTokenLapse done
  refine ⟨_, rfl, ?_⟩
  dsimp only
  split
  · exact .same rfl rfl
  · split
    · exact ⟨by simp, fun hs => State.raiseTray_ok _ _ _ hs⟩
    · exact .same rfl rfl

theorem execCaddyPresence_keeps (c : BayId) :
    ∃ t, execCaddyPresence c s = .next t ∧ Keeps s t := by
  unfold execCaddyPresence done
  exact ⟨_, rfl, ⟨by simp, fun hs => by simp [hs]⟩⟩

theorem execCaddyDomainBGood_keeps (c : BayId) :
    ∃ t, execCaddyDomainBGood c s = .next t ∧ Keeps s t := by
  unfold execCaddyDomainBGood done
  exact ⟨_, rfl, ⟨by simp, fun hs => by simp [hs]⟩⟩

theorem execCaddyLeverOpen_keeps (c : BayId) :
    ∃ t, execCaddyLeverOpen c s = .next t ∧ Keeps s t := by
  unfold execCaddyLeverOpen done
  exact ⟨_, rfl, ⟨by simp, fun hs => by simp [hs]⟩⟩

theorem execCaddyLeverClose_keeps (c : BayId) :
    ∃ t, execCaddyLeverClose c s = .next t ∧ Keeps s t := by
  unfold execCaddyLeverClose done
  exact ⟨_, rfl, ⟨by simp, fun hs => by simp [hs]⟩⟩

theorem execCtrRead_keeps (f : Frame) (ids : List (BitVec 32)) :
    ∃ t, execCtrRead f ids s = .next t ∧ Keeps s t := by
  unfold execCtrRead done
  exact ⟨_, rfl, State.serveRead_keeps ..⟩

theorem execTraceRead_keeps (f : Frame) (offset : BitVec 32) (length : BitVec 16) :
    ∃ t, execTraceRead f offset length s = .next t ∧ Keeps s t := by
  unfold execTraceRead done
  exact ⟨_, rfl, State.serveRead_keeps ..⟩

theorem execDiagRead_keeps (f : Frame) (die window : Byte) (addr : BitVec 32) (count : BitVec 16) :
    ∃ t, execDiagRead f die window addr count s = .next t ∧ Keeps s t := by
  unfold execDiagRead done
  refine ⟨_, rfl, State.serve_keeps _ _ (.refl s) ?_⟩
  repeat' split
  all_goals exact ⟨by simp, fun hs => by simp [hs]⟩

theorem execDiagWrite_keeps (f : Frame) (die window : Byte) (_addr : BitVec 32) (words : List (BitVec 32)) :
    ∃ t, execDiagWrite f die window _addr words s = .next t ∧ Keeps s t := by
  unfold execDiagWrite done
  refine ⟨_, rfl, State.serve_keeps _ _ (.refl s) ?_⟩
  repeat' split
  all_goals exact ⟨by simp, fun hs => by simp [hs]⟩

theorem execDiagLoop_keeps (f : Frame) (die port : Byte) (count len : BitVec 16) :
    ∃ t, execDiagLoop f die port count len s = .next t ∧ Keeps s t := by
  unfold execDiagLoop done
  refine ⟨_, rfl, State.serve_keeps _ _ (.refl s) ?_⟩
  repeat' split
  all_goals exact ⟨by simp, fun hs => by simp [hs]⟩

theorem execLoopbackComplete_keeps (d : DieId) :
    ∃ t, execLoopbackComplete d s = .next t ∧ Keeps s t := by
  unfold execLoopbackComplete done
  refine ⟨_, rfl, ?_⟩
  repeat' split
  all_goals exact ⟨by simp, fun hs => by simp [hs]⟩

theorem execEvtAck_keeps (f : Frame) (ackSeq : BitVec 32) :
    ∃ t, execEvtAck f ackSeq s = .next t ∧ Keeps s t := by
  unfold execEvtAck done
  refine ⟨_, rfl, State.serve_keeps _ _ (.refl s) ?_⟩
  split
  · exact .same rfl rfl
  · exact ⟨by simp, fun hs => State.ackEvents_ok _ _ hs⟩

theorem execEvtSubscribe_keeps (f : Frame) (part : Byte) :
    ∃ t, execEvtSubscribe f part s = .next t ∧ Keeps s t := by
  unfold execEvtSubscribe done
  refine ⟨_, rfl, State.serve_keeps _ _ (.refl s) ?_⟩
  dsimp only
  repeat' split
  all_goals exact ⟨by simp, fun hs => by simp [hs]⟩

theorem execEvtUnsubscribe_keeps (f : Frame) (part : Byte) :
    ∃ t, execEvtUnsubscribe f part s = .next t ∧ Keeps s t := by
  unfold execEvtUnsubscribe done
  refine ⟨_, rfl, State.serve_keeps _ _ (.refl s) ?_⟩
  dsimp only
  repeat' split
  all_goals exact ⟨by simp, fun hs => by simp [hs]⟩

theorem execRouteFlipEffect_keeps (d : DieId) (part : BitVec 4) :
    ∃ t, execRouteFlipEffect d part s = .next t ∧ Keeps s t := by
  unfold execRouteFlipEffect done
  exact ⟨_, rfl, ⟨by simp, fun hs => by simp [hs]⟩⟩

theorem execRouteRetire_keeps (d : DieId) (part : BitVec 4) :
    ∃ t, execRouteRetire d part s = .next t ∧ Keeps s t := by
  unfold execRouteRetire done
  exact ⟨_, rfl, ⟨by simp, fun hs => by simp [hs]⟩⟩

theorem execPotZeroDone_keeps (d : DieId) :
    ∃ t, execPotZeroDone d s = .next t ∧ Keeps s t := by
  unfold execPotZeroDone done
  exact ⟨_, rfl, ⟨by simp, fun hs => by simp [hs]⟩⟩

theorem execSegmentZeroDone_keeps (d : DieId) :
    ∃ t, execSegmentZeroDone d s = .next t ∧ Keeps s t := by
  unfold execSegmentZeroDone done
  exact ⟨_, rfl, ⟨by simp, fun hs => by simp [hs]⟩⟩

theorem execPartOpenReady_keeps (d : DieId) (part : BitVec 4) :
    ∃ t, execPartOpenReady d part s = .next t ∧ Keeps s t := by
  unfold execPartOpenReady done
  exact ⟨_, rfl, ⟨by simp, fun hs => by simp [hs]⟩⟩

theorem execPartFence_keeps (d : DieId) (part : BitVec 4) :
    ∃ t, execPartFence d part s = .next t ∧ Keeps s t := by
  unfold execPartFence done
  refine ⟨_, rfl, ?_⟩
  split <;> exact ⟨by simp, fun hs => by simp [hs]⟩

theorem execFenceDiscard_keeps (d : DieId) (part : BitVec 4) :
    ∃ t, execFenceDiscard d part s = .next t ∧ Keeps s t := by
  unfold execFenceDiscard done
  exact ⟨_, rfl, ⟨by simp, fun hs => by simp [hs]⟩⟩

theorem execPourTimeout_keeps (d : DieId) (k : PourKey) (place : Place) :
    ∃ t, execPourTimeout d k place s = .next t ∧ Keeps s t := by
  unfold execPourTimeout done
  exact ⟨_, rfl, ⟨by simp, fun hs => by simp [hs]⟩⟩

theorem execAbortRecordExpiry_keeps (d : DieId) (k : PourKey) :
    ∃ t, execAbortRecordExpiry d k s = .next t ∧ Keeps s t := by
  unfold execAbortRecordExpiry done
  exact ⟨_, rfl, ⟨by simp, fun hs => by simp [hs]⟩⟩

theorem execEgressSelect_keeps (d : DieId) (p : PortId) (ns : Nat) :
    ∃ t, execEgressSelect d p ns s = .next t ∧ Keeps s t := by
  unfold execEgressSelect done
  exact ⟨_, rfl, ⟨by simp, fun hs => by simp [hs]⟩⟩

theorem execCircuitSlotSend_keeps (d : DieId) (p : PortId) (slot : Fin 16) :
    ∃ t, execCircuitSlotSend d p slot s = .next t ∧ Keeps s t := by
  unfold execCircuitSlotSend done
  exact ⟨_, rfl, ⟨by simp, fun hs => by simp [hs]⟩⟩

theorem execReachNoticeSend_keeps (spine leaf : Byte) :
    ∃ t, execReachNoticeSend spine leaf s = .next t ∧ Keeps s t := by
  unfold execReachNoticeSend done
  refine ⟨_, rfl, ?_⟩
  split <;> exact ⟨by simp, fun hs => by simp [hs]⟩

theorem execNoticeRepeat_keeps :
    ∃ t, execNoticeRepeat s = .next t ∧ Keeps s t := by
  unfold execNoticeRepeat done
  refine ⟨_, rfl, ?_⟩
  dsimp only
  split
  · exact Keeps.trans (.same rfl rfl) (Keeps.foldl (fun _ _ => .same (by simp) (by simp)) _ _)
  · exact .same rfl rfl

theorem execFaultRemap_keeps (f : Frame) (part mask : Byte) (rank spare : BitVec 16) (epoch : BitVec 32) (effect : Tick) :
    ∃ t, execFaultRemap f part mask rank spare epoch effect s = .next t ∧ Keeps s t := by
  unfold execFaultRemap done
  exact ⟨_, rfl, State.serveMask_keeps _ _ _ _ _ fun _ _ => dieAct_keeps ..⟩

theorem execFaultAlias_keeps (f : Frame) (part die : Byte) (firstRank count : BitVec 16) :
    ∃ t, execFaultAlias f part die firstRank count s = .next t ∧ Keeps s t := by
  unfold execFaultAlias done
  refine ⟨_, rfl, State.serve_keeps _ _ (.refl s) ?_⟩
  dsimp only
  repeat' split
  all_goals exact ⟨by simp, fun hs => by simp [hs]⟩

theorem execFaultReach_keeps (d : DieId) (p : PortId) (crcOk : Bool) (plane spine leaf state : Byte) (decl : Tick) :
    ∃ t, execFaultReach d p crcOk plane spine leaf state decl s = .next t ∧ Keeps s t := by
  unfold execFaultReach done
  exact ⟨_, rfl, ⟨by simp, fun hs => by simp [hs]⟩⟩

theorem execFwVerify_keeps (f : Frame) :
    ∃ t, execFwVerify f s = .next t ∧ Keeps s t := by
  unfold execFwVerify done
  exact ⟨_, rfl, State.serve_keeps _ _ (.refl s) ⟨by simp, fun hs => by simp [hs]⟩⟩

theorem execFwActivateNextReset_keeps (f : Frame) :
    ∃ t, execFwActivateNextReset f s = .next t ∧ Keeps s t := by
  unfold execFwActivateNextReset done
  refine ⟨_, rfl, State.serve_keeps _ _ (.refl s) ?_⟩
  dsimp only
  repeat' split
  all_goals exact ⟨by simp, fun hs => by simp [hs]⟩

theorem execFwActivateNow_keeps (f : Frame) :
    ∃ t, execFwActivateNow f s = .next t ∧ Keeps s t := by
  unfold execFwActivateNow done
  refine ⟨_, rfl, State.serve_keeps _ _ (.refl s) ?_⟩
  dsimp only
  repeat' split
  all_goals exact ⟨by simp, fun hs => by simp [hs]⟩

theorem execFwStatus_keeps (f : Frame) :
    ∃ t, execFwStatus f s = .next t ∧ Keeps s t := by
  unfold execFwStatus done
  exact ⟨_, rfl, State.serveRead_keeps ..⟩

theorem execBootImageCheck_keeps :
    ∃ t, execBootImageCheck s = .next t ∧ Keeps s t := by
  unfold execBootImageCheck done
  refine ⟨_, rfl, ?_⟩
  dsimp only
  repeat' split
  all_goals exact ⟨by simp, fun hs => by simp [hs]⟩

theorem execXipMiss_keeps (core : Fin 4) (addr : BitVec 32) :
    ∃ t, execXipMiss core addr s = .next t ∧ Keeps s t := by
  unfold execXipMiss done
  refine ⟨_, rfl, ?_⟩
  split <;> exact ⟨by simp, fun hs => by simp [hs]⟩

theorem execFlashOpComplete_keeps :
    ∃ t, execFlashOpComplete s = .next t ∧ Keeps s t := by
  unfold execFlashOpComplete done
  refine ⟨_, rfl, ?_⟩
  dsimp only
  split
  · exact .same rfl rfl
  · refine .same ((State.startWork_fixed).trans ?_) ((State.startWork_logged).trans ?_)
    · exact fixed_foldl (fun _ _ => by simp) _ _
    · exact logged_foldl (fun _ _ => by simp) _ _

theorem execGrpOpen_keeps (f : Frame) (part mask : Byte) (group : BitVec 16) (control : BitVec 128) (weights : BitVec 1024) :
    ∃ t, execGrpOpen f part mask group control weights s = .next t ∧ Keeps s t := by
  unfold execGrpOpen done
  exact ⟨_, rfl, State.serveMaskWith_keeps _ _ _ _ _ _ _ fun _ _ => dieAct_keeps ..⟩

theorem execGrpClose_keeps (f : Frame) (part mask : Byte) (group : BitVec 16) :
    ∃ t, execGrpClose f part mask group s = .next t ∧ Keeps s t := by
  unfold execGrpClose done
  exact ⟨_, rfl, State.serveMask_keeps _ _ _ _ _ fun _ _ => dieAct_keeps ..⟩

theorem execGrpStatus_keeps (f : Frame) (part die : Byte) (group : BitVec 16) :
    ∃ t, execGrpStatus f part die group s = .next t ∧ Keeps s t := by
  unfold execGrpStatus done
  refine ⟨_, rfl, State.serve_keeps _ _ (.refl s) ?_⟩
  dsimp only
  repeat' split
  all_goals exact ⟨by simp, fun hs => by simp [hs]⟩

theorem execCircSetup_keeps (f : Frame) (part die : Byte) (circuit : BitVec 16) (entry : BitVec 64) (lease : BitVec 32) :
    ∃ t, execCircSetup f part die circuit entry lease s = .next t ∧ Keeps s t := by
  unfold execCircSetup done
  refine ⟨_, rfl, State.serveDie_keeps _ _ _ _ _ fun d t => ?_⟩
  dsimp only
  split
  · exact (dieAct_keeps ..).trans ⟨State.checkShrunk_fixed .., State.checkShrunk_ok _ _ _⟩
  · exact dieAct_keeps ..

theorem execCircRenew_keeps (f : Frame) (part mask : Byte) (circuit : BitVec 16) (lease : BitVec 32) :
    ∃ t, execCircRenew f part mask circuit lease s = .next t ∧ Keeps s t := by
  unfold execCircRenew done
  exact ⟨_, rfl, State.serveMaskWith_keeps _ _ _ _ _ _ _ fun _ _ => dieAct_keeps ..⟩

theorem execCircRelease_keeps (f : Frame) (part mask : Byte) (circuit : BitVec 16) :
    ∃ t, execCircRelease f part mask circuit s = .next t ∧ Keeps s t := by
  unfold execCircRelease done
  exact ⟨_, rfl, State.serveMask_keeps _ _ _ _ _ fun _ _ => dieAct_keeps ..⟩

theorem execCircRead_keeps (f : Frame) (part die : Byte) (first count : BitVec 16) :
    ∃ t, execCircRead f part die first count s = .next t ∧ Keeps s t := by
  unfold execCircRead done
  refine ⟨_, rfl, State.serve_keeps _ _ (.refl s) ?_⟩
  dsimp only
  repeat' split
  all_goals exact ⟨by simp, fun hs => by simp [hs]⟩

theorem execCongConfig_keeps (f : Frame) (part mask vc setMask mode : Byte) (mark throttle : BitVec 32) :
    ∃ t, execCongConfig f part mask vc setMask mode mark throttle s = .next t ∧ Keeps s t := by
  unfold execCongConfig done
  refine ⟨_, rfl, State.serveMaskWith_keeps _ _ _ _ _ _ _ fun d t => ?_⟩
  dsimp only
  repeat' split
  all_goals exact ⟨by simp, fun hs => by simp [hs]⟩

theorem execLinkStatus_keeps (f : Frame) (die firstPort count : Byte) :
    ∃ t, execLinkStatus f die firstPort count s = .next t ∧ Keeps s t := by
  unfold execLinkStatus done
  exact ⟨_, rfl, State.serveRead_keeps ..⟩

theorem execLinkConfigHold_keeps (f : Frame) (die port : Byte) :
    ∃ t, execLinkConfigHold f die port s = .next t ∧ Keeps s t := by
  unfold execLinkConfigHold done
  refine ⟨_, rfl, State.serve_keeps _ _ (.refl s) ?_⟩
  dsimp only
  repeat' split
  all_goals exact ⟨by simp, fun hs => by simp [hs]⟩

theorem execLinkConfigRelease_keeps (f : Frame) (die port : Byte) :
    ∃ t, execLinkConfigRelease f die port s = .next t ∧ Keeps s t := by
  unfold execLinkConfigRelease done
  refine ⟨_, rfl, State.serve_keeps _ _ (.refl s) ?_⟩
  dsimp only
  repeat' split
  all_goals exact ⟨by simp, fun hs => by simp [hs]⟩

theorem execLinkConfigDisable_keeps (f : Frame) (die port : Byte) :
    ∃ t, execLinkConfigDisable f die port s = .next t ∧ Keeps s t := by
  unfold execLinkConfigDisable done
  refine ⟨_, rfl, State.serve_keeps _ _ (.refl s) ?_⟩
  dsimp only
  repeat' split
  all_goals exact ⟨by simp, fun hs => by simp [hs]⟩

theorem execLinkRetrainWiden_keeps (f : Frame) (die port : Byte) :
    ∃ t, execLinkRetrainWiden f die port s = .next t ∧ Keeps s t := by
  unfold execLinkRetrainWiden done
  refine ⟨_, rfl, State.serve_keeps _ _ (.refl s) ?_⟩
  dsimp only
  repeat' split
  all_goals exact ⟨by simp, fun hs => by simp [hs]⟩

theorem execLinkRetrainFull_keeps (f : Frame) (die port : Byte) :
    ∃ t, execLinkRetrainFull f die port s = .next t ∧ Keeps s t := by
  unfold execLinkRetrainFull done
  refine ⟨_, rfl, State.servePort_keeps _ _ _ _ _ fun d p t => ?_⟩
  dsimp only
  repeat' split
  all_goals exact ⟨by simp, fun hs => by simp [hs]⟩

theorem execLinkRetrainNarrow_keeps (f : Frame) (die port lanes : Byte) :
    ∃ t, execLinkRetrainNarrow f die port lanes s = .next t ∧ Keeps s t := by
  unfold execLinkRetrainNarrow done
  refine ⟨_, rfl, State.serve_keeps _ _ (.refl s) ?_⟩
  dsimp only
  repeat' split
  all_goals exact ⟨by simp, fun hs => by simp [hs]⟩

theorem execLinkPortmap_keeps (f : Frame) (die : Byte) (cabled : BitVec 64) :
    ∃ t, execLinkPortmap f die cabled s = .next t ∧ Keeps s t := by
  unfold execLinkPortmap done
  refine ⟨_, rfl, State.serve_keeps _ _ (.refl s) ?_⟩
  dsimp only
  repeat' split
  all_goals exact ⟨by simp, fun hs => by simp [hs]⟩

theorem execLinkSweep_keeps (f : Frame) (q : SweepReq) :
    ∃ t, execLinkSweep f q s = .next t ∧ Keeps s t := by
  unfold execLinkSweep done
  refine ⟨_, rfl, State.serve_keeps _ _ (.refl s) ?_⟩
  dsimp only
  repeat' split
  all_goals exact ⟨by simp, fun hs => by simp [hs]⟩

theorem execLinkSweepResult_keeps (f : Frame) (die port sweepId lane : Byte) (firstPoint count : BitVec 16) :
    ∃ t, execLinkSweepResult f die port sweepId lane firstPoint count s = .next t ∧ Keeps s t := by
  unfold execLinkSweepResult done
  exact ⟨_, rfl, State.serveRead_keeps ..⟩

theorem execNotResidentConvert_keeps (d : DieId) (id : Nat) :
    ∃ t, execNotResidentConvert d id s = .next t ∧ Keeps s t := by
  unfold execNotResidentConvert done
  exact ⟨_, rfl, ⟨by simp, fun hs => by simp [hs]⟩⟩

theorem execFmpRelay_keeps (f : Frame) (opcode : BitVec 16) (payload : List Byte) :
    ∃ t, execFmpRelay f opcode payload s = .next t ∧ Keeps s t := by
  unfold execFmpRelay done
  refine ⟨_, rfl, ?_⟩
  dsimp only
  repeat' split
  all_goals exact ⟨by simp, fun hs => by simp [hs]⟩

theorem execFmpRelayResponse_keeps (d : DieId) (_p : PortId) (tag status : BitVec 16) (payload : List Byte) :
    ∃ t, execFmpRelayResponse d _p tag status payload s = .next t ∧ Keeps s t := by
  unfold execFmpRelayResponse done
  refine ⟨_, rfl, ?_⟩
  split <;> exact ⟨by simp, fun hs => by simp [hs]⟩

theorem execIcmpv6Echo_keeps (eth1 : Bool) (src : BitVec 128) (ident seqNo : BitVec 16) (data : List Byte) :
    ∃ t, execIcmpv6Echo eth1 src ident seqNo data s = .next t ∧ Keeps s t := by
  unfold execIcmpv6Echo done
  exact ⟨_, rfl, ⟨by simp, fun hs => by simp [hs]⟩⟩

theorem execNeighborDiscovery_keeps (eth1 : Bool) (src target : BitVec 128) :
    ∃ t, execNeighborDiscovery eth1 src target s = .next t ∧ Keeps s t := by
  unfold execNeighborDiscovery done
  exact ⟨_, rfl, ⟨by simp, fun hs => by simp [hs]⟩⟩

theorem execDelayProbePeriodic_keeps (d : DieId) (p : PortId) (time : BitVec 48) :
    ∃ t, execDelayProbePeriodic d p time s = .next t ∧ Keeps s t := by
  unfold execDelayProbePeriodic done
  exact ⟨_, rfl, ⟨by simp, fun hs => by simp [hs]⟩⟩

theorem execDelayProbe_keeps (d : DieId) (p : PortId) (w : CtlWord) (turnaround : BitVec 32) :
    ∃ t, execDelayProbe d p w turnaround s = .next t ∧ Keeps s t := by
  unfold execDelayProbe done
  refine ⟨_, rfl, State.onWord_keeps _ _ _ _ fun t => ?_⟩
  exact ⟨by simp, fun hs => by simp [hs]⟩

theorem execDelayProbeReply_keeps (d : DieId) (p : PortId) (w : CtlWord) (arrival : BitVec 48) :
    ∃ t, execDelayProbeReply d p w arrival s = .next t ∧ Keeps s t := by
  unfold execDelayProbeReply done
  refine ⟨_, rfl, State.onWord_keeps _ _ _ _ fun t => ?_⟩
  exact ⟨by simp, fun hs => by simp [hs]⟩

theorem execFlowWord_keeps (d : DieId) (p : PortId) (w : CtlWord) :
    ∃ t, execFlowWord d p w s = .next t ∧ Keeps s t := by
  unfold execFlowWord done
  refine ⟨_, rfl, State.onWord_keeps _ _ _ _ fun t => ?_⟩
  exact ⟨by simp, fun hs => by simp [hs]⟩

theorem execAck_keeps (d : DieId) (p : PortId) (w : CtlWord) :
    ∃ t, execAck d p w s = .next t ∧ Keeps s t := by
  unfold execAck done
  refine ⟨_, rfl, State.onWord_keeps _ _ _ _ fun t => ?_⟩
  exact ⟨by simp, fun hs => by simp [hs]⟩

theorem execNak_keeps (d : DieId) (p : PortId) (w : CtlWord) :
    ∃ t, execNak d p w s = .next t ∧ Keeps s t := by
  unfold execNak done
  refine ⟨_, rfl, State.onWord_keeps _ _ _ _ fun t => ?_⟩
  exact ⟨by simp, fun hs => by simp [hs]⟩

theorem execStomp_keeps (d : DieId) (p : PortId) (w : CtlWord) :
    ∃ t, execStomp (d, p) w s = .next t ∧ Keeps s t := by
  unfold execStomp done
  refine ⟨_, rfl, State.onWord_keeps _ _ _ _ fun t => ?_⟩
  exact ⟨by simp, fun hs => by simp [hs]⟩

theorem execDataBlock_keeps (d : DieId) (p : PortId) (seq : BitVec 16) (l : Line) (pos : Fin 20) (after : Option CtlWord) :
    ∃ t, execDataBlock (d, p) seq l pos after s = .next t ∧ Keeps s t := by
  unfold execDataBlock done
  refine ⟨_, rfl, ?_⟩
  dsimp only
  repeat' split
  all_goals first | exact .same rfl rfl | exact ⟨by simp, fun hs => State.takeBlock_ok _ _ _ _ hs⟩ | exact ⟨by simp, fun hs => by simp [hs]⟩

theorem execCodewordUncorrectable_keeps (d : DieId) (p : PortId) (l : Line) :
    ∃ t, execCodewordUncorrectable (d, p) l s = .next t ∧ Keeps s t := by
  unfold execCodewordUncorrectable done
  refine ⟨_, rfl, ?_⟩
  dsimp only
  repeat' split
  all_goals exact ⟨by simp, fun hs => by simp [hs]⟩

theorem execRetryTimeout_keeps (d : DieId) (p : PortId) :
    ∃ t, execRetryTimeout d p s = .next t ∧ Keeps s t := by
  unfold execRetryTimeout done
  refine ⟨_, rfl, ?_⟩
  split <;> exact ⟨by simp, fun hs => by simp [hs]⟩

theorem execLinkHoldDone_keeps (d : DieId) (p : PortId) (timeUp : Bool) :
    ∃ t, execLinkHoldDone d p timeUp s = .next t ∧ Keeps s t := by
  unfold execLinkHoldDone done
  refine ⟨_, rfl, ?_⟩
  dsimp only
  repeat' split
  all_goals exact ⟨by simp, fun hs => by simp [hs]⟩

theorem execRouteConfig_keeps (f : Frame) (part mask mode : Byte) (linger : BitVec 16) :
    ∃ t, execRouteConfig f part mask mode linger s = .next t ∧ Keeps s t := by
  unfold execRouteConfig done
  exact ⟨_, rfl, State.serveMask_keeps _ _ _ _ _ fun _ _ => dieAct_keeps ..⟩

theorem execRouteStage_keeps (f : Frame) (part mask version : Byte) (recs : List StageRec) :
    ∃ t, execRouteStage f part mask version recs s = .next t ∧ Keeps s t := by
  unfold execRouteStage done
  exact ⟨_, rfl, State.serveMask_keeps _ _ _ _ _ fun _ _ => dieAct_keeps ..⟩

theorem execRouteSeal_keeps (f : Frame) (part mask version : Byte) :
    ∃ t, execRouteSeal f part mask version s = .next t ∧ Keeps s t := by
  unfold execRouteSeal done
  exact ⟨_, rfl, State.serveMask_keeps _ _ _ _ _ fun _ _ => dieAct_keeps ..⟩

theorem execRouteDiscard_keeps (f : Frame) (part mask version : Byte) :
    ∃ t, execRouteDiscard f part mask version s = .next t ∧ Keeps s t := by
  unfold execRouteDiscard done
  exact ⟨_, rfl, State.serveMask_keeps _ _ _ _ _ fun _ _ => dieAct_keeps ..⟩

theorem execRouteFlip_keeps (f : Frame) (part mask : Byte) (flipTick : Tick) :
    ∃ t, execRouteFlip f part mask flipTick s = .next t ∧ Keeps s t := by
  unfold execRouteFlip done
  exact ⟨_, rfl, State.serveMask_keeps _ _ _ _ _ fun _ _ => dieAct_keeps ..⟩

theorem execRouteStatus_keeps (f : Frame) (part : Byte) :
    ∃ t, execRouteStatus f part s = .next t ∧ Keeps s t := by
  unfold execRouteStatus done
  exact ⟨_, rfl, State.serveRead_keeps ..⟩

theorem execRouteRead_keeps (f : Frame) (die version : Byte) (firstDst count : BitVec 16) :
    ∃ t, execRouteRead f die version firstDst count s = .next t ∧ Keeps s t := by
  unfold execRouteRead done
  exact ⟨_, rfl, State.serveRead_keeps ..⟩

theorem execRouteOwner_keeps (f : Frame) (part mask : Byte) (firstDst count : BitVec 16) :
    ∃ t, execRouteOwner f part mask firstDst count s = .next t ∧ Keeps s t := by
  unfold execRouteOwner done
  exact ⟨_, rfl, State.serveMask_keeps _ _ _ _ _ fun _ _ => dieAct_keeps ..⟩

theorem execRouteReachRead_keeps (f : Frame) (mask leaf : Byte) :
    ∃ t, execRouteReachRead f mask leaf s = .next t ∧ Keeps s t := by
  unfold execRouteReachRead done
  exact ⟨_, rfl, State.serveReach_keeps _ _ _ _ fun t => .refl t⟩

theorem execRouteReachWrite_keeps (f : Frame) (mask leaf : Byte) (value : BitVec 32) :
    ∃ t, execRouteReachWrite f mask leaf value s = .next t ∧ Keeps s t := by
  unfold execRouteReachWrite done
  exact ⟨_, rfl, State.serveReach_keeps _ _ _ _ fun _ => .same (by simp) (by simp)⟩

theorem execTrainId_keeps (d : DieId) (p : PortId) (w : CtlWord) :
    ∃ t, execTrainId d p w s = .next t ∧ Keeps s t := by
  unfold execTrainId done
  refine ⟨_, rfl, State.onWord_keeps _ _ _ _ fun t => ?_⟩
  dsimp only
  repeat' split
  all_goals exact ⟨by simp, fun hs => by simp [hs]⟩

theorem execFarSignalDetect_keeps (d : DieId) (p : PortId) :
    ∃ t, execFarSignalDetect d p s = .next t ∧ Keeps s t := by
  unfold execFarSignalDetect done
  exact ⟨_, rfl, ⟨by simp, fun hs => by simp [hs]⟩⟩

theorem execTrainComplete_keeps (d : DieId) (p : PortId) (found : BitVec 5) :
    ∃ t, execTrainComplete (d, p) found s = .next t ∧ Keeps s t := by
  unfold execTrainComplete done
  refine ⟨_, rfl, ?_⟩
  dsimp only
  repeat' split
  all_goals exact ⟨by simp, fun hs => by simp [hs]⟩

theorem execLaneLock_keeps (d : DieId) (p : PortId) (lane : Fin 4) :
    ∃ t, execLaneLock d p lane s = .next t ∧ Keeps s t := by
  unfold execLaneLock done
  refine ⟨_, rfl, ?_⟩
  dsimp only
  repeat' split
  all_goals first | exact .same rfl rfl | exact .same (by simp) (by simp)

theorem execWidthReq_keeps (d : DieId) (p : PortId) (w : CtlWord) :
    ∃ t, execWidthReq d p w s = .next t ∧ Keeps s t := by
  unfold execWidthReq done
  refine ⟨_, rfl, State.onWord_keeps _ _ _ _ fun t => ?_⟩
  dsimp only
  repeat' split
  all_goals exact ⟨by simp, fun hs => by simp [hs]⟩

theorem execSwitchStart_keeps (d : DieId) (p : PortId) :
    ∃ t, execSwitchStart d p s = .next t ∧ Keeps s t := by
  unfold execSwitchStart done
  refine ⟨_, rfl, ?_⟩
  split <;> exact ⟨by simp, fun hs => by simp [hs]⟩

theorem execTrainBoundExpiry_keeps (d : DieId) (p : PortId) :
    ∃ t, execTrainBoundExpiry d p s = .next t ∧ Keeps s t := by
  unfold execTrainBoundExpiry done
  refine ⟨_, rfl, ?_⟩
  dsimp only
  repeat' split
  all_goals exact ⟨by simp, fun hs => by simp [hs]⟩

theorem execSweepStart_keeps (d : DieId) (p : PortId) (w : CtlWord) :
    ∃ t, execSweepStart d p w s = .next t ∧ Keeps s t := by
  unfold execSweepStart done
  refine ⟨_, rfl, State.onWord_keeps _ _ _ _ fun t => ?_⟩
  repeat' split
  all_goals exact ⟨by simp, fun hs => by simp [hs]⟩

theorem execSweepKeepalive_keeps (d : DieId) (p : PortId) (w : CtlWord) :
    ∃ t, execSweepKeepalive d p w s = .next t ∧ Keeps s t := by
  unfold execSweepKeepalive done
  refine ⟨_, rfl, State.onWord_keeps _ _ _ _ fun t => ?_⟩
  exact ⟨by simp, fun hs => by simp [hs]⟩

theorem execSweepFarTimeout_keeps (d : DieId) (p : PortId) :
    ∃ t, execSweepFarTimeout d p s = .next t ∧ Keeps s t := by
  unfold execSweepFarTimeout done
  refine ⟨_, rfl, ?_⟩
  split <;> exact ⟨by simp, fun hs => by simp [hs]⟩

theorem execSweepPoint_keeps (d : DieId) (p : PortId) (w : CtlWord) :
    ∃ t, execSweepPoint d p w s = .next t ∧ Keeps s t := by
  unfold execSweepPoint done
  refine ⟨_, rfl, State.onWord_keeps _ _ _ _ fun t => ?_⟩
  repeat' split
  all_goals exact ⟨by simp, fun hs => by simp [hs]⟩

theorem execSweepKeepaliveSend_keeps (d : DieId) (p : PortId) :
    ∃ t, execSweepKeepaliveSend d p s = .next t ∧ Keeps s t := by
  unfold execSweepKeepaliveSend done
  refine ⟨_, rfl, ?_⟩
  split <;> exact ⟨by simp, fun hs => by simp [hs]⟩

theorem execSweepEnd_keeps (d : DieId) (p : PortId) (w : CtlWord) :
    ∃ t, execSweepEnd d p w s = .next t ∧ Keeps s t := by
  unfold execSweepEnd done
  refine ⟨_, rfl, State.onWord_keeps _ _ _ _ fun t => ?_⟩
  exact ⟨by simp, fun hs => by simp [hs]⟩

theorem execSweepAborted_keeps (d : DieId) (p : PortId) (w : CtlWord) :
    ∃ t, execSweepAborted d p w s = .next t ∧ Keeps s t := by
  unfold execSweepAborted done
  refine ⟨_, rfl, State.onWord_keeps _ _ _ _ fun t => ?_⟩
  exact ⟨by simp, fun hs => by simp [hs]⟩

theorem execSweepBusy_keeps (d : DieId) (p : PortId) (w : CtlWord) :
    ∃ t, execSweepBusy d p w s = .next t ∧ Keeps s t := by
  unfold execSweepBusy done
  refine ⟨_, rfl, State.onWord_keeps _ _ _ _ fun t => ?_⟩
  exact ⟨by simp, fun hs => by simp [hs]⟩

end Sys2Proof.Machine
end

