-- ==== Sys2Proof/Machine/Indicators.lean ====
section
/-! DEFINITION. The front indicators (spec/20 R644, Table 20-2): what each may show is a function of the state. The manual gives no
precedence where two of its conditions hold at once, so each look has its own condition (DEDUCED, log entry 111). -/

namespace Sys2Proof.Machine

/-- What an indicator can show (Table 20-2). -/
inductive Lamp where
  | off | green | amber | amberFlashing | blue | blueFlashing
deriving DecidableEq, Repr

/-- The cabled ports of a bay, and the state of each. -/
def State.bayLinks (s : State) (c : BayId) : List LinkState :=
  let d := bayDie c
  ((bayPorts c).filter fun p => (s.cabled d).getLsbD p).map fun p => ((s.die d).port p).state

/-- The condition of Table 20-2 for a look of a bay's indicator. -/
def State.bayLamp (s : State) (c : BayId) : Lamp → Bool
  | .off => (s.bay c).state == .empty || !s.domainA c
  | .green => (s.bayLinks c).all (· == .active)
  | .amber => (s.bay c).state == .leaving
  | .amberFlashing => (s.bay c).state == .refused
  | .blue => (s.bay c).state == .readyToRemove
  | .blueFlashing => false

/-- The condition of Table 20-2 for a look of the tray indicator. -/
def State.trayLamp (s : State) : Lamp → Bool
  | .off => s.pow.state == 3
  | .green => s.boot.stage == .full
  | .amber => s.boot.stage == .preWarm || s.pow.grade == 1 || s.pow.grade == 2
  | .amberFlashing => false
  | .blue => s.pow.shutdown.isSome
  | .blueFlashing => s.pow.last.leak != 0

/-- The condition of Table 20-2 for a look of the identify indicator (R435). -/
def State.identifyLamp (s : State) : Lamp → Bool
  | .blueFlashing => s.boot.identify
  | .off => !s.boot.identify
  | _ => false

end Sys2Proof.Machine
end

