-- ==== Sys2Proof/Tests/Slice0.lean ====
section
/-! SUPPORT. Tests: small states, one refused operand for each check of WellFormed.lean, and for each statement of
Certificates/Slice0/Obligations.lean a state and operands that meet its hypotheses, with what one step does there. -/

open Sys2Proof Sys2Proof.Machine

namespace Sys2Proof.Tests

set_option Elab.async false

/-! ### States and requests -/

/-- What one command does from a state passes a check. -/
def does (i : Instr) (s : State) (check : State → Bool) : Bool := match exec i s with | .next t => check t | _ => false

/-- A response with a status has left the tray. -/
def tells (st : Status) (t : State) : Bool := t.out.any fun o => match o with | .resp _ _ _ _ x _ _ => x == st | _ => false

/-- A command is answered with a status. -/
def answers (i : Instr) (s : State) (st : Status) : Bool := does i s (tells st)

/-- A port in service at full width and rate, with XON for every partition and channel. -/
def livePort : Port :=
  { state := .active, cause := 0, lanes := 15, fullRate := true, locked := 15, marginNear := 0xFFFF, marginFar := 0xFFFF,
    txXon := BitVec.allOnes 128 }

/-- A powered die in full service in tick 100. -/
def liveDie : Die :=
  { core := .on, now := 100, full := true, laneGroups := BitVec.allOnes 18,
    tick := { state := .locked, everLocked := true } }

/-- A public key for which (e, e), with e the SHA-384 of the byte 2, is a signature of that byte: the point with x = e less the base
point. -/
def key0 : PubKey :=
  0xbc9fb56bea47482ea0a6627e90b302d045c6047665840e82a3070a35554feee2c09d366a4cfa08cc087f86af89ffd6ce12b4504675c2ebd7bcaaf89c0698f63c87b6324464c12e6eb2b84f96bacf276615032fbc61b2eac1f1e65045146220b404

/-- A leaf tray in full service; key slot 0 is ACTIVE and holds the token with epoch 5. -/
def tray : State :=
  { State.reset with
    q0 := liveDie, q1 := liveDie, q2 := liveDie, q3 := liveDie,
    boot := { stage := .full, ident := some { index := 0, spine := false, rack := 0, slot := 0 }, inputOn := true, now := 100 },
    tok := { holder := some 0, epoch := 5, lapse := 1000, keys := [(0, key0)] },
    fuse := { bits := State.reset.fuse.bits ||| (1#4096 <<< 448) },
    pow := { state := 0 } }

/-- The signature (e, e). -/
def sig0 : List Byte :=
  let e := (le 48 0xdb475240477c5e4497a2c5724ca485f5b1f2c2fc0602b92bae234238ec8d4e873a7148c739593e95a7f4dfe7c6e69f69).reverse
  e ++ e

/-- A signed request of slot 0 on ETH0 with a payload of `n` bytes; its signature stands for that of the bytes it covers. -/
def req (n : Nat) : Frame :=
  { chan := .eth0, port := 0, magicOk := true, crcOk := true, version := 3, slot := 0, tag := 9, hpart := 0xFF, cred := 0,
    route := 0, payloadLen := BitVec.ofNat 16 (n + 96), tokenEpoch := 5, cmdSeq := 10, origin := 0xFFFF, signed := [2],
    sig := sig0, frags := [], addr := 0 }

/-! ### Ill-formed operands -/

/-- A header with a `LEN` and a `TYPE`, and nothing else. -/
def hdr (type : BitVec 5) (len : Nat) : BitVec 256 := ({ type := type, len := BitVec.ofNat 13 len } : Hdr).toWord

/-- A word of no type and a header of 4 bytes without them are refused by the checks of their rows. -/
theorem test_wf_refuses :
    ([.tickMarker 0 0 0 0, .tickClaim 0 0 0, .flowWord 0 0 0, .ack 0 0 0, .nak 0 0 0, .trainId 0 0 0, .widthReq 0 0 0,
      .delayProbe 0 0 0 0, .delayProbe 0 0 0x1AB 0, .delayProbeReply 0 0 0xAB 0, .sweepStart 0 0 0x2AA, .sweepKeepalive 0 0 0x1AA,
      .sweepPoint 0 0 0x1AA, .sweepEnd 0 0 0x1AA, .sweepAborted 0 0 0x1AA, .sweepBusy 0 0 0x1AA, .dataBlock (0, 0) 0 (.frame []) 0 none, .codewordUncorrectable (0, 64) (.code []), .stomp (0, 0) 0,
      .caddyIdRead 0 [], .packetIngress 0 0 (hdr 0 4) ⟨[], 0⟩, .spray 0 0 (hdr 0 0) ⟨[], 0⟩, .circuitData 0 0 (hdr 0 0) ⟨[], 0⟩,
      .posReq 0 0 (hdr 0 0) ⟨[], 0⟩, .posRsp 0 0 (hdr 0 0) ⟨[], 0⟩, .echoNote 0 0 (hdr 0 0) ⟨[], 0⟩, .contrib 0 0 (hdr 0 0) ⟨[], 0⟩,
      .gatherIn 0 0 (hdr 0 0) ⟨[], 0⟩, .blendPacket 0 0 (hdr 0 0) ⟨[], 0⟩, .blendAbort 0 0 (hdr 0 0) ⟨[], 0⟩, .diag 0 (hdr 0 0) ⟨[], 0⟩,
      .mbxReq 0 0 (hdr 0 0) ⟨[], 0⟩, .mbxRsp 0 0 (hdr 0 0) ⟨[], 0⟩, .mbxEvt 0 0 (hdr 0 0) ⟨[], 0⟩] : List Instr).all (fun i => !i.wf) = true := by
  decide +kernel

/-- A packet row on an operand that is no such packet stops by name. -/
theorem test_ill_formed_stops :
    (match exec (.spray 0 0 (hdr 0 0) ⟨[], 0⟩) tray with | .fault (.illFormed row) => row == "SPRAY" | _ => false) = true := by
  decide +kernel

/-- The same rows take a packet of their kind. -/
theorem test_wf_takes :
    ([.spray 0 0 (hdr 0x10 1) ⟨[0], 0⟩, .circuitData 0 0 (hdr 0x14 0) ⟨[], 0⟩, .posReq 0 0 (hdr 0x18 0) ⟨[], 0⟩, .posRsp 0 0 (hdr 0x1A 0) ⟨[], 0⟩,
      .echoNote 0 0 (hdr 0x12 0) ⟨[], 0⟩, .contrib 0 0 (hdr 0x08 0) ⟨[], 0⟩, .gatherIn 0 0 (hdr 0x09 0) ⟨[], 0⟩, .mbxReq 0 0 (hdr 1 0) ⟨[], 0⟩,
      .mbxRsp 0 0 (hdr 2 0) ⟨[], 0⟩, .mbxEvt 0 0 (hdr 3 0) ⟨[], 0⟩, .diag 0 (hdr 0x1F 0) ⟨[], 0⟩, .ack 0 0 0xA5, .nak 0 0 0xA6,
      .delayProbe 0 0 0xAB 0, .delayProbeReply 0 0 0x1AB 0, .sweepEnd 0 0 0x5AA] : List Instr).all Instr.wf = true := by
  decide +kernel

/-! ### The queue, the checks of a request, and its answer -/

theorem wit_StepRunsTheFrontCommand :
    step { tray with pending := [.bootStatus (req 0), .mgrStatus (req 0)] } =
      exec (.bootStatus (req 0)) { tray with pending := [.mgrStatus (req 0)] } ∧ step tray = .next tray := ⟨rfl, rfl⟩

/-- The hypotheses of the statements about a sound frame that is no repeat. -/
def sound (s : State) (i : Instr) (f : Frame) : Bool :=
  ((s.request i).map (·.1) == some f) && s.hears f && f.magicOk && f.crcOk && (s.repeatOf f).isNone

/-- One frame for each status of Table 11-4, on a tray with slot 1 REVOKED and slot 2 ACTIVE with no cached key. -/
theorem wit_RequestsAreCheckedInOrder :
    let s : State := { tray with
      fuse := { bits := tray.fuse.bits ||| (3#4096 <<< 840) ||| (1#4096 <<< 1232) },
      mbx := { slots := [(slotKey .eth0 1, { op := 0, tag := 0, port := 0, origin := 0 })] },
      tok := { tray.tok with seqs := [(0, 9)] } }
    let f := req 0
    let said (g : Frame) (st : Status) : Bool := sound s (.mgrBeat g) g && answers (.mgrBeat g) s st
    said { f with version := 2, slot := 16 } .badVersion = true ∧ said { f with slot := 16, payloadLen := 0 } .badField = true ∧
    said { f with slot := 1, payloadLen := 0 } .slotBusy = true ∧ said { f with payloadLen := 97, route := 1 } .badLength = true ∧
    said { f with route := 1, cred := 0xFF, payloadLen := 0 } .badRoute = true ∧
    said { f with cred := 0xFF, payloadLen := 0 } .noCredential = true ∧ said { f with cred := 3 } .keyUnknown = true ∧
    said { f with cred := 4 } .keyUnknown = true ∧ said { f with cred := 1 } .slotRevoked = true ∧
    said { f with cred := 2 } .keyUnknown = true ∧ said { f with sig := [], cmdSeq := 9 } .badSignature = true ∧
    said { f with cmdSeq := 9, tokenEpoch := 4 } .replayed = true ∧ said { f with tokenEpoch := 4 } .staleToken = true ∧
    said f .ok = true := by decide +kernel

/-- In-band: a class without the capability, a request the table does not mark, and a partition not its own. -/
theorem wit_InbandChecks :
    let s : State := { tray with q0 := { liveDie with view := { portPart := [(3, 1)] }, tab := { portPart := [(3, 1)] } } }
    let g : Frame := { req 0 with chan := .ib 0, port := 3, cred := 0xFF, sig := [] }
    let h : Frame := { g with payloadLen := 4 }
    sound s (.mgrBeat { g with payloadLen := 0 }) { g with payloadLen := 0 } = true ∧
    answers (.mgrBeat { g with payloadLen := 0 }) s .notPrivileged = true ∧ answers (.evtSubscribe h 2) s .partMismatch = true ∧
    answers (.evtSubscribe h 1) s .ok = true ∧ answers (.evtSubscribe { h with port := 4 } 1) s .notPrivileged = true := by
  decide +kernel

/-- A frame of a node that does not hold the token. -/
theorem test_not_token_holder : answers (.mgrBeat (req 0)) { tray with tok := { tray.tok with holder := some 1 } } .notTokenHolder = true := by
  decide +kernel

theorem wit_UnsoundFramesAndRepeats :
    let f := req 0
    let r : RespCopy := { op := 0x0235, tag := 9, cmdSeq := 10, part := 0xFF, epoch := 5, status := .ok, payload := [1] }
    let s : State := { tray with mbx := { copies := [(slotKey .eth0 0, r)] } }
    tray.boot.stage = .full ∧ ({ tray with boot := { tray.boot with stage := .preWarm } } : State).listening = true ∧
    ({ tray with boot := { tray.boot with stage := .alwaysOn } } : State).listening = false ∧
    does (.mgrStatus { f with magicOk := false }) tray (fun t => t.out == [] && t.mbx != tray.mbx) = true ∧
    does (.mgrStatus { f with crcOk := false }) tray (fun t => t.out == [] && t.mbx != tray.mbx) = true ∧
    s.repeatOf f = some r ∧ does (.mgrStatus f) s (fun t => t.out == .copy .eth0 0 0x0235 9 .ok [1] :: linkOut .eth0 0 1) = true ∧
    tray.hears { f with frags := [(0, 64), (72, 100)] } = false ∧
    does (.mgrStatus { f with frags := [(0, 64), (72, 100)] }) tray (fun t => t == tray) = true := by decide +kernel

/-- A request in the last slot, and then the same frame again. -/
theorem wit_NoRequestIsCarriedOutTwice :
    let f : Frame := { req 0 with slot := 15 }
    sound tray (.mgrBeat f) f = true ∧ Map.look tray.mbx.slots (slotKey .eth0 15) = none ∧
    does (.mgrBeat f) tray (fun t => t.listening && (t.request (.mgrRelease f)).isSome &&
      does (.mgrRelease f) t fun u => u.tok == t.tok && u.out.length == 2) = true := by decide +kernel

theorem wit_AnAnswerWritesOnlyItsSlot : endsSlot (req 0) .ok = true ∧ endsSlot (req 0) .slotBusy = false ∧
    endsSlot { req 0 with chan := .ib 3 } .ok = false := by decide +kernel

theorem wit_IdentityReadsAnswer :
    tray.accepts { op := 0x0101, change := false, cap := some 0, len := 0, unsignedOk := true, identity := true } (req 0) = true ∧
    tray.accepts { op := 0x0102, change := false, cap := some 0, len := 4, unsignedOk := true, identity := true } (req 4) = true ∧
    tray.accepts { op := 0x0201, change := false, len := 0 } (req 0) = true ∧
    tray.accepts { op := 0x0211, change := false, len := 0 } (req 0) = true ∧
    answers (.idRead (req 0)) tray .ok = true ∧ answers (.idCaddy (req 4) 7) tray .ok = true ∧
    answers (.bootStatus (req 0)) tray .ok = true ∧ answers (.tickStatus (req 0)) tray .ok = true := by decide +kernel

theorem wit_IdentityAndBringUpChangesComplete :
    let blank : State := { tray with boot := { tray.boot with ident := none } }
    let used : State := { tray with boot := { tray.boot with records := [(0, { index := 0, spine := false, rack := 0, slot := 0 })] } }
    tray.accepts { op := 0x0105, change := true, len := 4 } (req 4) = true ∧
    blank.idIndex = 0 ∧ answers (.idWrite (req 4) 0 15 3) blank .ok = true ∧ used.fuseNext 1760 16 = some 1760 ∧
    answers (.idWrite (req 4) 1 1 15) used .accepted = true ∧
    tray.accepts { op := 0x0106, change := true, len := 4 } (req 4) = true ∧ 3 ≤ tray.boot.stage.code ∧
    does (.idIdentify (req 4) 1) tray (fun t => tells .ok t && t.boot.identifyNext == some (101, true)) = true ∧
    tray.accepts { op := 0x0202, change := true, len := 0 } (req 0) = true ∧
    does (.bootReady (req 0)) tray (fun t => tells .ok t && t.boot.ready) = true ∧
    tray.accepts { op := 0x0210, change := true, len := 4 } (req 4) = true ∧
    does (.tickConfig (req 4) 0 0xFF) tray (fun t => tells .ok t && t.elect == tray.elect) = true ∧
    does (.tickConfig (req 4) 0 2) (tray.allDies fun x => { x with tick := {} }) (fun t =>
      tells .ok t && t.elect.period == 2 && t.q3.tick.period == 2) = true := by decide +kernel

/-- A tray whose slot 0 holds the hash of the public key, with the nonce 3 of ETH0 valid. -/
def keyed : State :=
  { tray with
    fuse := { bits := (1#4096 <<< 448) ||| (BitVec.ofNat 4096 (keyHashOf key0).toNat <<< 64) },
    tok := { tray.tok with keys := [], nonces := [(0, 3)] } }

theorem wit_ManagerKeysAndTokenComplete :
    let unheld : State := { tray with tok := { tray.tok with holder := none } }
    tray.accepts { op := 0x0230, change := false, len := 0, unsignedOk := true } (req 0) = true ∧
    does (.mgrNonce (req 0)) tray (fun t => tells .ok t && t.free == 1) = true ∧
    keyed.accepts { op := 0x0231, change := true, len := 116, noToken := true, ownAuth := true } (req 116) = true ∧
    keyed.keyState 0 = 1 ∧ keyHashOf key0 = keyed.keyHash 0 ∧
    does (.mgrKey (req 116) 3 key0) keyed (fun t => tells .ok t && t.tok.keys == [(0, key0)] && t.tok.nonces == []) = true ∧
    answers (.mgrKey (req 116) 4 key0) keyed .replayed = true ∧
    unheld.accepts { op := 0x0232, change := true, len := 8, noToken := true } (req 8) = true ∧ unheld.holder = none ∧
    does (.mgrClaim (req 8) 6) unheld (fun t => t.out == [] && t.tok.claims.length == 1 && t.mbx.slots.length == 1) = true ∧
    answers (.mgrClaim (req 8) 5) unheld .staleToken = true ∧ answers (.mgrClaim (req 8) 6) tray .tokenHeld = true ∧
    tray.accepts { op := 0x0233, change := true, len := 0 } (req 0) = true ∧
    does (.mgrBeat (req 0)) tray (fun t => tells .ok t && t.tok.lastBeat == 100) = true ∧
    tray.accepts { op := 0x0234, change := true, len := 0 } (req 0) = true ∧
    does (.mgrRelease (req 0)) tray (fun t => tells .ok t && t.tok.release == some 101) = true ∧
    tray.accepts { op := 0x0235, change := false, len := 0 } (req 0) = true ∧ answers (.mgrStatus (req 0)) tray .ok = true := by
  decide +kernel

/-- Two claims of the tick before with one epoch: the lower slot wins. -/
theorem wit_TokenIsDecidedAndLapses :
    let c (k : Nat) : Claim := { f := { req 8 with slot := BitVec.ofNat 8 k }, key := k, epoch := 7, tick := 99 }
    let s : State := { tray with tok := { tray.tok with holder := none, claims := [c 1, c 0] } }
    (∀ e ∈ s.tok.claims, e.tick ≠ s.boot.now ∧ e.key < 4) ∧
    does .tokenClaimDecide s (fun t => t.tok.holder == some 0 && t.tok.epoch == 7 && tells .ok t && tells .lostRace t) = true ∧
    reached (1000 : Tick) tray.tok.lapse = true ∧
    does .tokenLapse { tray with boot := { tray.boot with now := 1000 } } (fun t => t.tok.holder == none && t.tok.epoch == 5) = true ∧
    does .tokenLapse tray (fun t => t.tok == tray.tok) = true := by decide +kernel

/-! ### Fabric commands -/

/-- A request that is accepted and answered OK. -/
def served (s : State) (i : Instr) : Bool :=
  (match s.request i with | some (f, c) => s.accepts c f | none => false) && answers i s .ok

/-- A request that is accepted and answered ACCEPTED. -/
def begun (s : State) (i : Instr) : Bool :=
  (match s.request i with | some (f, c) => s.accepts c f | none => false) && answers i s .accepted

/-- The tray with every die changed. -/
def each (f : Die → Die) : State := tray.allDies f

/-- The tray with the tables of every die changed, for lookups and for commands. -/
def tables (f : Tables → Tables) : State := each fun x => x.modBoth f

/-- A margin sweep of two points on lane 0 of Q3 port 69. -/
def sweepReq : SweepReq :=
  { die := 3, port := 69, lanes := 1, side := 0, sweepId := 4, phaseMin := 0, phaseMax := 1, phaseStep := 1, voffMin := 0,
    voffMax := 0, voffStep := 1, dwell := 1 }

theorem wit_StatusReadsAnswer :
    let s : State := { tray with sweeps := [{ req := sweepReq }] }
    served tray (.linkStatus (req 4) 3 71 1) = true ∧ served s (.linkSweepResult (req 8) 3 69 4 3 0 1024) = true ∧
    served tray (.routeStatus (req 4) 15) = true ∧ served tray (.routeRead (req 8) 3 1 2047 1) = true ∧
    served tray (.routeReachRead (req 8) 15 63) = true ∧ served tray (.partStatus (req 4) 15) = true := by decide +kernel

theorem wit_ServiceReadsAnswer :
    served tray (.pwrStatus (req 0)) = true ∧ served tray (.ctrRead (req 8) [0]) = true ∧
    served tray (.traceRead (req 8) 1048575 1) = true ∧ served tray (.fuseRead (req 0)) = true ∧
    served tray (.fuseAudit (req 4) 511 63) = true ∧ served tray (.fwStatus (req 0)) = true ∧
    served tray (.grpStatus (req 4) 15 3 0x1FFF) = true ∧ served tray (.circRead (req 8) 15 3 4095 1) = true ∧
    served tray (.dirRead (req 12) 15 3 63 0 125) = true ∧ served tray (.faultAlias (req 8) 15 3 2047 1) = true ∧
    served tray (.diagRead (req 12) 3 1 0 1) = true ∧ does (.diagRead (req 12) 3 0 0 2) tray (fun t => t.free == 2) = true := by
  decide +kernel

theorem wit_LinkConfigAndRetrainComplete :
    let port (q : Port) : State := each fun x => (x.modPort 69 fun _ => q).modPort 63 fun _ => q
    let live := port livePort
    let held := port { livePort with state := .held, cause := 3 }
    let narrow := port { livePort with lanes := 3 }
    served live (.linkConfigHold (req 4) 3 69) = true ∧ served live (.linkConfigDisable (req 4) 3 69) = true ∧
    served tray (.linkConfigHold (req 4) 3 0) = true ∧
    does (.linkConfigHold (req 4) 3 69) live (fun t => ((t.die 3).port 69).leaveTo == some .held) = true ∧
    served held (.linkConfigRelease (req 4) 3 69) = true ∧
    does (.linkConfigRelease (req 4) 3 69) held (fun t => ((t.die 3).port 69).state == .active) = true ∧
    begun live (.linkRetrainWiden (req 4) 3 69) = true ∧ begun held (.linkRetrainWiden (req 4) 3 69) = true ∧
    begun narrow (.linkRetrainWiden (req 4) 3 69) = true ∧
    does (.linkRetrainWiden (req 4) 3 69) narrow (fun t => ((t.die 3).port 69).widen) = true ∧
    begun live (.linkRetrainFull (req 4) 3 69) = true ∧ begun tray (.linkRetrainFull (req 4) 3 69) = true ∧
    does (.linkRetrainFull (req 4) 3 69) live (fun t => ((t.die 3).port 69).state == .detect) = true ∧
    begun live (.linkRetrainNarrow (req 4) 3 63 8) = true ∧
    does (.linkRetrainNarrow (req 4) 3 63 3) live (fun t => (((t.die 3).port 63).sw.map (·.lanes)) == some 3) = true ∧
    answers (.linkRetrainNarrow (req 4) 3 69 3) live .badField = true := by
  decide +kernel

theorem wit_PortMapAndSweepComplete :
    let held := each fun x => x.modPort 69 fun _ => { livePort with state := .held, cause := 3 }
    served tray (.linkPortmap (req 16) 3 0) = true ∧
    does (.linkPortmap (req 16) 3 0) tray (fun t => t.cabled 3 == 0 && t.cabled 0 == BitVec.allOnes 64) = true ∧
    sweepPoints sweepReq = some 2 ∧ begun held (.linkSweep (req 16) sweepReq) = true ∧
    does (.linkSweep (req 16) sweepReq) held (fun t => ((t.die 3).port 69).state == .sweep) = true ∧
    answers (.linkSweep (req 16) sweepReq) tray .portInService = true ∧
    answers (.linkSweep (req 16) sweepReq) (each fun x => x.modPort 69 fun _ =>
      { livePort with state := .sweep, far := some { word := 0, last := 100, since := 100 } }) .busy = true ∧
    (each fun x => x.modPort 63 fun _ => livePort).cabled 3 = BitVec.allOnes 64 ∧
    answers (.linkPortmap (req 16) 3 0x7FFFFFFFFFFFFFFF) (each fun x => x.modPort 63 fun _ => livePort) .portInService =
      true := by decide +kernel

/-- Partition 15 with its version 1 in a state. -/
def version (t : VerState) : State := tables fun u => { u with vers := [(15, { v1 := t })] }

theorem wit_RouteVersionCommandsComplete :
    served tray (.routeConfig (req 8) 15 15 1 256) = true ∧
    does (.routeConfig (req 8) 15 8 1 256) tray (fun t => (t.q3.tab.ver 15).drain && !(t.q2.tab.ver 15).drain) = true ∧
    (((version .staging).q0.verNow 15).st true) = .staging ∧ served (version .staging) (.routeSeal (req 4) 15 15 1) = true ∧
    does (.routeSeal (req 4) 15 15 1) (version .staging) (fun t => (t.q0.tab.ver 15).v1 == .sealed) = true ∧
    served (version .sealed) (.routeDiscard (req 4) 15 15 1) = true ∧
    does (.routeDiscard (req 4) 15 15 1) (version .staging) (fun t => (t.q0.tab.ver 15).v1 == .retired) = true ∧
    later 101 (100 : Tick) = true ∧ served (version .sealed) (.routeFlip (req 16) 15 15 101) = true ∧
    does (.routeFlip (req 16) 15 15 101) (version .sealed) (fun t => (t.q0.tab.ver 15).flip == some 101) = true := by
  decide +kernel

/-- An entry of partition 15 that names port 3: `VALID` port kind 1. -/
def routeEntry : BitVec 64 := 1#64 ||| (3#64 <<< 2) ||| (15#64 <<< 9)

theorem wit_RouteEntriesAreWritten :
    let own := tables fun u => { u with route0 := [(2047, routeEntry)], route1 := [(2047, 15#64 <<< 9), (5, 15#64 <<< 9)],
                                        vers := [(15, { v1 := .staging })] }
    let fresh := tables fun u => { u with route0 := [(2047, routeEntry)] }
    let drain := each fun x =>
      { (x.modBoth fun u => { u with route0 := [(2047, routeEntry)], vers := [(15, { drain := true })] }) with
        drained := (List.range 8).map fun v => (120 + v, true) }
    let recs : List StageRec := [{ dst := 2047, entry := routeEntry }]
    rtKind (tray.q0.tab.route true 2047) = 0 ∧ served tray (.routeOwner (req 8) 15 15 2047 1) = true ∧
    does (.routeOwner (req 8) 15 15 2047 1) tray (fun t => rtPart (t.q3.tab.route true 2047) == 15) = true ∧
    recordOk 15 (own.q0.tab.route true 2047) { dst := 2047, entry := routeEntry } = true ∧
    served own (.routeStage (req 20) 15 15 1 recs) = true ∧
    does (.routeStage (req 20) 15 15 1 recs) own (fun t => t.q0.tab.route true 2047 == routeEntry) = true ∧
    served fresh (.routeStage (req 20) 15 15 1 recs) = true ∧
    does (.routeStage (req 20) 15 15 1 recs) fresh (fun t =>
      t.q0.tab.route true 2047 == routeEntry && (t.q0.tab.ver 15).v1 == .staging) = true ∧
    (drain.q0.isDrained 15 0xD8 = true) ∧ served drain (.routeStage (req 20) 15 15 0 recs) = true ∧
    served drain (.routeOwner (req 8) 15 15 2046 1) = true := by decide +kernel

/-- R449 for partition 0: an entry of the RETIRED version that the ACTIVE version does not list becomes 0. -/
theorem test_stage_copies_the_active_version :
    let s := tables fun u => { u with route1 := [(5, 5#64)], route0 := [(7, 9#64)] }
    does (.routeStage (req 20) 0 1 1 [{ dst := 8, entry := 5 }]) s (fun t =>
      t.q0.tab.route true 5 == 0 && t.q0.tab.route true 7 == 9 && t.q0.tab.route true 8 == 5) = true := by decide +kernel

theorem wit_ReachWriteSetsBits :
    served tray (.routeReachWrite (req 8) 15 63 5) = true ∧
    does (.routeReachWrite (req 8) 8 63 5) tray (fun t => t.q3.tab.reachOf 63 == 5 && t.q2.tab.reachOf 63 == BitVec.allOnes 32) =
      true := by decide +kernel

/-- Partition 15 in a state on every die, with segment 46 and down port 31 at choice. -/
def part15 (st : PartState) (seg : Map Seg := []) (ports : Map (BitVec 4) := []) : State :=
  tables fun u => { u with parts := [(15, { state := st })], segs := seg, portPart := ports }

theorem wit_PartitionsOpenRestartAndClose :
    let seg : Map Seg := [(46, { owner := some 15 })]
    served (part15 .closed seg) (.partOpen (req 4) 15 15) = true ∧
    does (.partOpen (req 4) 15 15) (part15 .closed seg) (fun t =>
      (t.q3.tab.part 15).gen == 1 && (t.q3.segJobs.map (·.item)) == [46]) = true ∧
    served (part15 .fenced) (.partRestart (req 4) 15 15) = true ∧
    does (.partRestart (req 4) 15 8) (part15 .fenced) (fun t =>
      (t.q3.tab.part 15).state == .reopening && (t.q0.tab.part 15).state == .fenced) = true ∧
    served (part15 .opened seg) (.partClose (req 4) 15 15) = true ∧ served (part15 .fenced seg) (.partClose (req 4) 15 15) = true ∧
    does (.partClose (req 4) 15 15) (part15 .opened seg) (fun t =>
      (t.q3.tab.part 15).state == .closed && (t.q3.tab.seg 46).returning) = true := by decide +kernel

theorem wit_SegmentsRangesAndPortsAreAssigned :
    let held : Map Seg := [(45, { owner := some 15, last := some (15, 0), inQuota := true }),
                           (46, { owner := some 15, last := some (15, 0), inQuota := true })]
    let shares : State := tables fun u => { u with parts := [(15, { state := .opened, shares := 0 })], segs := held }
    served (part15 .closed) (.partGrantSeg (req 12) 15 3 46) = true ∧
    served (part15 .opened [(46, { last := some (15, 0) })]) (.partGrantSeg (req 12) 15 3 46) = true ∧
    does (.partGrantSeg (req 12) 15 3 46) (part15 .opened [(46, { last := some (15, 0) })]) (fun t => (t.q3.tab.seg 46).inQuota) = true ∧
    served (part15 .opened) (.partGrantSeg (req 12) 15 3 46) = true ∧
    does (.partGrantSeg (req 12) 15 3 46) (part15 .opened) (fun t => t.q3.segJobs.length == 1 && t.q2.segJobs.length == 0) = true ∧
    shares.q3.quotaOk 1 0 = true ∧ served shares (.partReturnSeg (req 12) 15 3 46) = true ∧
    does (.partReturnSeg (req 12) 15 3 46) shares (fun t => (t.q3.tab.seg 46).returning) = true ∧
    served tray (.partDirRange (req 12) 15 3 0 262144) = true ∧
    does (.partDirRange (req 12) 15 3 262144 0) tray (fun t => (t.q3.tab.part 15).dirBase == 262144) = true ∧
    served tray (.partPortsAssign (req 4) 15 3 31) = true ∧
    does (.partPortsAssign (req 4) 15 3 31) tray (fun t => t.q3.tab.portPart == [(31, 15)]) = true ∧
    served (part15 .opened [] [(31, 15)]) (.partPortsUnassign (req 4) 15 3 31) = true ∧
    does (.partPortsUnassign (req 4) 15 3 31) (part15 .opened [] [(31, 15)]) (fun t => t.q3.tab.portPart == []) = true := by
  decide +kernel

theorem wit_PartitionSettingsAndQuiesceComplete :
    let lay := part15 .opened
    served lay (.partConfig (req 24) 15 15 0x18 0 0 16 0 1) = true ∧
    does (.partConfig (req 24) 15 15 0x18 0 0 16 0 1) lay (fun t => (t.q0.tab.part 15).circCap == 16) = true ∧
    lay.q0.modeFixed 15 = false ∧ served lay (.partConfig (req 24) 15 15 1 1 0 0 0 0) = true ∧
    does (.partConfig (req 24) 15 15 1 1 0 0 0 0) lay (fun t => (t.q0.tab.part 15).defLease == 250000) = true ∧
    served lay (.partQuiesce (req 4) 15 15 0xFE) = true ∧
    does (.partQuiesce (req 4) 15 15 0x80) lay (fun t => t.q3.idleFrom == [(127, 101)]) = true ∧
    served lay (.partResume (req 4) 15 15 0xFF) = true := by decide +kernel

/-! ### Service commands -/

/-- Every virtual channel of partition 15 is drained on a die. -/
def drained15 (x : Die) : Die := { x with drained := (List.range 8).map fun v => (120 + v, true) }

/-- Partition 15 OPEN and drained on every die, with other tables at choice. -/
def quiet15 (f : Tables → Tables) : State :=
  each fun x => drained15 (x.modBoth fun t => f { t with parts := [(15, { state := .opened, dirSize := 262144 })] })

/-- A control word of one rank with stride 1 and window 1. -/
def control1 : BitVec 128 := (1#128 <<< 16) ||| (1#128 <<< 39) ||| (1#128 <<< 69)

/-- The alias of rank 0 of partition 15 is endpoint 0. -/
def alias0 : Map (BitVec 16) := [(2048 * 15, 1#1 ++ 0#15)]

theorem wit_GroupsOpenAndClose :
    let s := quiet15 fun t => { t with ranks := alias0 }
    let c := controlAsked control1
    let g := quiet15 fun t => { t with groups := [(4095, { control := setFld (setBit c 0 true) 1 4 15#4 })] }
    controlOk c = true ∧ pairingOk (gOp c) (gFmt c) (gOut c) = true ∧ s.q0.groupEndpoints 15 c = some [0] ∧
    distinct (homesOf c [0]) = true ∧ distinct (rootsOf c (homesOf c [0])) = true ∧ s.q3.freePots.length = 64 ∧
    served s (.grpOpen (req 152) 15 15 0xFFFF control1 0) = true ∧
    does (.grpOpen (req 152) 15 15 0xFFFF control1 0) s (fun t =>
      gValid (t.q3.tab.group 4095).control && t.q0.freePots.length == 61 && t.q3.freePots.length == 64) = true ∧
    gValid (g.q0.tab.group 4095).control = true ∧ gPart (g.q0.tab.group 4095).control = 15 ∧
    served g (.grpClose (req 4) 15 15 4095) = true ∧
    does (.grpClose (req 4) 15 8 4095) g (fun t =>
      !gValid (t.q3.tab.group 4095).control && gValid (t.q0.tab.group 4095).control) = true ∧
    served s (.grpClose (req 4) 15 15 4095) = true := by decide +kernel

/-- A valid circuit entry of partition 15 on egress 69, slot 0, 256 B. -/
def circuit15 : BitVec 64 := 1#64 ||| (15#64 <<< 1) ||| (69#64 <<< 5) ||| (1#64 <<< 12) ||| (1#64 <<< 28)

theorem wit_CircuitsAreSetUpRenewedAndReleased :
    let s := quiet15 id
    let c := quiet15 fun t => { t with circuits := [(4095, circuit15)] }
    ccValid circuit15 = true ∧ ccPart circuit15 = 15 ∧ ccEgress circuit15 = 69 ∧ ccMax circuit15 = 1 ∧ ccSlots circuit15 = 1 ∧
    s.q3.slotsTaken 69 (fun _ => true) = 0 ∧ served s (.circSetup (req 24) 15 3 4095 circuit15 0) = true ∧
    does (.circSetup (req 24) 15 3 4095 circuit15 0) s (fun t => t.q3.tab.lease 4095 == 2600 && t.q2.tab.circuits == []) = true ∧
    c.q0.findsCircuit 15 4095 = true ∧ served c (.circRenew (req 8) 15 15 4095 1) = true ∧
    does (.circRenew (req 8) 15 15 4095 1) c (fun t => t.q3.tab.lease 4095 == 101) = true ∧
    served c (.circRelease (req 4) 15 15 4095) = true ∧
    does (.circRelease (req 4) 15 8 4095) c (fun t => t.q3.tab.circuits == [] && t.q0.tab.circuits != []) = true := by decide +kernel

/-- A valid descriptor of two blocks of 64 positions from entry 262142, age 10. -/
def desc2 : BitVec 128 := 1#128 ||| (6#128 <<< 1) ||| (262142#128 <<< 8) ||| (2#128 <<< 26) ||| (10#128 <<< 48)

theorem wit_DirectoryCommandsComplete :
    let s := quiet15 id
    let e : DirEntry := { valid := true, part := 15, seqId := 63, block := 1, owner := 0, install := 90, expiry := 150 }
    let t := quiet15 fun t => { t with seqs := [(64 * 15 + 63, desc2)], dir := [(262143, e)], route0 := [(0, routeEntry)] }
    let rec1 (op : Byte) : DirRec := { op := op, seqId := 63, noAge := false, block := 1, owner := 0, age := 7 }
    sdValid desc2 = true ∧ descOk desc2 = true ∧ sdBase desc2 + sdBlocks desc2 = 262144 ∧
    served s (.dirSeq (req 20) 15 15 63 desc2) = true ∧
    does (.dirSeq (req 20) 15 15 63 desc2) s (fun u => u.q3.tab.seq 15 63 == desc2) = true ∧
    t.q0.view.routed 15 0 100 = true ∧ t.q0.view.live e 100 = true ∧
    served t (.dirWrite (req 24) 15 15 [rec1 1]) = true ∧
    does (.dirWrite (req 24) 15 15 [rec1 1]) t (fun u => (u.q3.tab.entry 262143).expiry == 107 && (u.q3.tab.entry 262143).install == 100) =
      true ∧
    does (.dirWrite (req 24) 15 15 [rec1 2]) t (fun u => (u.q3.tab.entry 262143) == { e with expiry := 107 }) = true ∧
    does (.dirWrite (req 24) 15 15 [rec1 3]) t (fun u => (u.q3.tab.entry 262143) == { e with valid := false }) = true ∧
    served t (.dirRangeEvict (req 16) 15 15 63 1 1) = true ∧
    does (.dirRangeEvict (req 16) 15 15 63 1 1) t (fun u => !(u.q3.tab.entry 262143).valid) = true ∧
    served t (.dirRangeRefresh (req 16) 15 15 63 1 1 9) = true ∧
    does (.dirRangeRefresh (req 16) 15 15 63 1 1 9) t (fun u => (u.q3.tab.entry 262143).expiry == 109) = true := by decide +kernel

theorem wit_CongestionAndRemapCommandsComplete :
    let s := quiet15 fun t => { t with route0 := [(2047, routeEntry)] }
    served s (.congConfig (req 16) 15 15 7 0 0xFF 0 0) = true ∧
    served s (.congConfig (req 16) 15 15 4 7 3 4096 524288) = true ∧ served s (.congConfig (req 16) 15 15 5 1 0 0 0) = true ∧
    does (.congConfig (req 16) 15 15 4 7 3 262144 8192) s (fun t =>
      t.q3.tab.congOf 15 4 == { mode := 3, mark := 262144, throttle := 8192 }) = true ∧
    served s (.faultRemap (req 24) 15 15 2047 2047 1 101) = true ∧
    does (.faultRemap (req 24) 15 15 2047 2047 1 101) s (fun t => (Map.look t.q3.remaps 15).isSome) = true ∧
    does (.faultRemap (req 24) 15 15 2047 2047 2 101) s (fun t => t.q3.remaps == []) = true := by decide +kernel

/-! ### Power and cooling -/

theorem wit_PowerCommandsComplete :
    begun tray (.pwrStateT0 (req 4)) = true ∧ begun tray (.pwrStateT1 (req 4)) = true ∧ begun tray (.pwrStateT2 (req 4)) = true ∧
    begun tray (.pwrStateT3 (req 4)) = true ∧ begun (quiet15 id) (.pwrStateT2 (req 4)) = false ∧
    does (.pwrStateT1 (req 4)) tray (fun t => t.pow.target == some (1, 0) && t.pow.state == 0) = true ∧
    served tray (.pwrRamp (req 8) 1000000 1000 1000) = true ∧ served tray (.pwrRamp (req 8) 0xFFFFFFFF 1 0) = true ∧
    does (.pwrRamp (req 8) 7 1 0) tray (fun t => (t.pow.rampNext.map (·.rackLimit)) == some 7 && t.pow.ramp.rackLimit == 2000) =
      true := by decide +kernel

theorem wit_PacedStepsAndTransitions :
    let e : PwrStep := { dom := 27, on := true, halfW := 180, last := true }
    let s (credit : Nat) (free : Bool) : State := { tray with pow :=
      { steps := [e], credit := credit, ramp := { rackLimit := if free then 0xFFFFFFFF else 2000 } } }
    let aim (dest : BitVec 2) : State := { each (fun x => { x with core := .off }) with
      pow := { state := 1, target := some (dest, 0) } }
    does .paceStep (s 0 true) (fun t => t.pow.steps == [] && t.pow.credit == 0) = true ∧
    does .paceStep (s 90000000 false) (fun t => t.pow.steps == [] && t.pow.credit == 0) = true ∧
    does .paceStep (s 89999999 false) (fun t => t.pow.steps == [e]) = true ∧
    does .pwrTransitionDone { tray with pow := { state := 1, target := some (0, 0) } } (fun t => t.pow.state == 0) = true ∧
    ((aim 2).wantsCore 0 = false) ∧ does .pwrTransitionDone (aim 2) (fun t => t.boot.stage == .fuseCheck && t.pow.state == 2) = true ∧
    does .pwrTransitionDone (aim 3) (fun t => t.boot.stage == .alwaysOn && t.boot.ident == none) = true := by decide +kernel

/-- Readings at which no sensor of Table 17-4a calls for anything. -/
def cool : Sensors := State.reset.pow.last

theorem wit_InputAndWakeComplete :
    does .inputSwitchClose State.reset (fun t => t.boot.inputOn && t.pow.state == 0) = true ∧
    does .busbarDropout tray (fun t => t.pow.state == 3 && !t.q0.on && t.fuse == tray.fuse) = true ∧
    does .shutdownExecute { tray with pow := { shutdown := some 1 } } (fun t => t.pow.state == 3 && t.pow.shutdown == none) = true ∧
    does .shutdownExecute { tray with pow := { shutdown := some 1, timers := [(6, 101)] } } (fun t => t.q0.on) = true ∧
    does .alwaysOnLoss tray (fun t => t.tok.epoch == 0 && t.fuse.bits == tray.fuse.bits && t.boot.now == 0) = true ∧
    (let s : State := { tray with pow := { state := 3 } };
     s.tooHot = false ∧ does (.wake true) s (fun t => t.pow.target == some (0, 0)) = true) := by decide +kernel

theorem wit_SensorsAndGradedResponses :
    let hot (g : BitVec 8) : State := { each (fun x => x.modPort 60 fun _ => livePort) with
      pow := { grade := g, conds := [(0, { shed := 3 })], clear := 1000 } }
    let shedded : State := { each (fun x => { x with shed := [15] }) with pow := { grade := 0, cap := 8 } }
    does (.sensorSample { cool with inlet := 1000 }) tray (fun t => t.pow.last.inlet == 1000 && t.pow.sampleTick == 100) = true ∧
    does (.sensorSample cool) State.reset (fun t => t.evs == {} && t.pow.grade == 0) = true ∧
    does (.sensorSample cool) { tray with pow := { timers := [(7, 101)] } } (fun t => t.pow.sampleTick == 0) = true ∧
    does .throttleCapStep { tray with pow := { grade := 1, cap := 7 } } (fun t => t.pow.cap == 8 && t.pow.timers == [(5, 2600)]) = true ∧
    does .throttleCapStep { tray with pow := { grade := 1, cap := 7, timers := [(5, 101)] } } (fun t => t.pow.cap == 7) = true ∧
    does .throttleCapStep { tray with pow := { grade := 0, bayCap := [(7, 7)] }, bays := [(7, { warm := 3 })] } (fun t =>
      t.pow.bayStep 7 == 8 && t.pow.cap == 0) = true ∧
    does .throttleCapLift { tray with pow := { cap := 1, bayCap := [(7, 1)] } } (fun t => t.pow.cap == 0 && t.pow.bayStep 7 == 0) = true ∧
    does .throttleCapLift shedded (fun t => t.pow.cap == 8) = true ∧
    does (.laneGroupShed 3) (hot 2) (fun t => t.q3.shed == [15] && Map.look t.pow.timers 3 == some 250100) = true ∧
    does .laneGroupReturn shedded (fun t => t.q0.shed == [] && t.q1.shed == [15]) = true ∧
    does .gradeClear (hot 3) (fun t => t.pow.grade == 0 && t.free == 1) = true := by decide +kernel

/-! ### Bring-up, fuses and firmware -/

/-- A bank whose image has an empty body and security version 0. -/
def image : Bank :=
  { mem := Mem.writes 0xFF [] 0 ([0x53, 0x48, 0x46, 0x57, 1, 0, 2, 0, 3, 0, 0, 0, 0, 0, 0, 0] ++ List.replicate 16 0 ++ sha384 []) }

/-- The same image, minor version 4, with a signature (e, e), e its hash, and the public key for which that is one. -/
def imageKey : PubKey :=
  0x809acd941c1b8faff6240ad7da4ea27daaca991b3e2ac13eaf1420c9ceb26aea1cd80cfd5e0d48b8b3e912c8be0d7084e2b56864170d5bff3f37e7ed625683a3ed1267d479ca5fba230df8350ffd9f0a653503b572cf110fb70bc809c42a25a904
def signedImage : Bank :=
  let e := (le 48 0xc3a12985c7ff536727acc35c686c9347eecf8c482c79ccad46fc52efa28a468d8c4aaced0a6553c212794b2c7281d53f).reverse
  { mem := Mem.writes 0xFF [] 0 ([0x53, 0x48, 0x46, 0x57, 1, 0, 2, 0, 4, 0, 0, 0, 0, 0, 0, 0] ++ List.replicate 16 0 ++ sha384 [] ++
      List.replicate 80 0 ++ e ++ e) }

theorem wit_BringUpStagesComplete :
    let boot (st : Stage) : State := { State.reset with boot := { stage := st, inputOn := true } }
    let good : State := { boot .boot with fw := { bank1 := image, armed := some true } }
    let check : State := { boot .fuseCheck with boot := { stage := .fuseCheck, checkDue := true, inputOn := true } }
    let rec0 : IdRec := { index := 0, spine := false, rack := 0, slot := 0 }
    let named : State := { check with
      boot := { check.boot with records := [(0, rec0)] }, elect := { priority := 9 },
      bays := [(1, { state := .active, taken := true, eeprom := [0, 0, 0, 0, 0, 0, 2] })] }
    let waits : State := { tray with boot := { tray.boot with
      stage := .preWarm, ready := true, cabled := [(0, 0), (1, 0), (2, 0), (3, 0)] } }
    (boot .boot).bootChoice = none ∧ does .bootImageCheck (boot .boot) (fun t => t.boot.romOnly) = true ∧
    good.bootChoice = some true ∧
    does .bootImageCheck good (fun t => t.boot.stage == .fuseCheck && t.fw.runBank && t.fw.armed == none && t.fw.bootBank) = true ∧
    check.countsMatch = true ∧ Map.look check.boot.records check.idIndex = none ∧
    does .fuseCheck check (fun t => t.boot.stage == .managerWait && !t.boot.checkDue) = true ∧
    Map.look named.boot.records named.idIndex = some rec0 ∧ (named.bay 1).taken = true ∧ named.countsMatch = true ∧
    does .fuseCheck named (fun t => t.boot.ident == some rec0 && t.elect.priority == 0 && (t.bay 1).cause == 2 &&
      (t.bay 1).state == .refused && !t.boot.checkDue) = true ∧
    does (.dieCorePowerGood 3) { State.reset with pow := { domains := BitVec.allOnes 133 } } (fun t => t.q3.on && !t.q0.on) = true ∧
    does (.dieCorePowerGood 3) { State.reset with q3 := { liveDie with core := .retention }, pow := { domains := BitVec.allOnes 133 } }
      (fun t => t.q3.on && t.q3.now == 0) = true ∧
    does (.watchdogExpiry 3 7) tray (fun t => t.boot.resetDue == some 1 && t.boot.faultCode == some (3, 7)) = true ∧
    waits.fullCond = 15 ∧ does .fullServiceEntry waits (fun t => t.boot.stage == .full && t.q3.full) = true := by decide +kernel

theorem wit_ResetKeepsWhatItMust :
    let s : State := { tray with boot := { tray.boot with resetDue := some 2 } }
    does .fc4Reset s (fun t => t.boot.stage == .boot && t.tok.keys == [] && t.tok.epoch == 5 && t.q0.tab == s.q0.tab) = true ∧
    reached (100 : Tick) (100 + BitVec.ofNat 48 tray.hb) = false ∧
    does .fc4Reset { s with tok := { s.tok with lapse := 100 } } (fun t => t.tok.lapse == 100 + BitVec.ofNat 48 s.hb) = true ∧
    does .fc4Reset tray (fun t => t == tray) = true := by decide +kernel

theorem wit_FuseCommandsBeginTheirUse :
    let s : State := { tray with
      fuse := { bits := tray.fuse.bits ||| (1#4096 <<< 840) }, fw := { runSecurity := 1 } }
    let unlocked : State := { tray with fuse := { bits := tray.fuse.bits ||| (1#4096 <<< 1780) } }
    let log1 (i : Instr) (s : State) : Bool := begun s i && does i s fun t =>
      t.fuse.log.length == 1 && t.fuse.op.isSome && t.fuse.bits == s.fuse.bits
    s.keyState 3 = 0 ∧ log1 (.fuseKeyProgram (req 52) 3 5) s = true ∧ s.keyState 0 = 1 ∧ s.keyState 1 = 1 ∧
    log1 (.fuseKeyRevoke (req 4) 1) s = true ∧ s.floor = 0 ∧ s.fuseNext 1632 128 = some 1632 ∧
    log1 (.fuseRollbackAdvance (req 4) 1) s = true ∧ s.fuseBit 1788 = false ∧ s.fuseBit 1812 = false ∧ log1 (.fusePrivilegeGrant (req 4) 0 4) s = true ∧
    log1 (.fusePrivilegeDeny (req 4) 1 4) s = true ∧ s.debugLocked = true ∧ s.fuseNext 1780 3 = some 1780 ∧
    log1 (.fuseDebugUnlock (req 4)) s = true ∧ unlocked.debugLocked = false ∧ unlocked.fuseNext 1776 4 = some 1777 ∧
    log1 (.fuseDebugLock (req 4)) unlocked = true := by decide +kernel

theorem wit_FuseUseEnds :
    let run (u : List FuseUse) (r : Option IdRec) : State :=
      { tray with fuse := { tray.fuse with op := some { uses := u, cred := 0, epoch := 5, ident := r } } }
    let s := run [oneBit 7 1788 [4]] none
    let rec1 : IdRec := { index := 1, spine := false, rack := 1, slot := 1 }
    let prog : FuseUse := { setting := 1, bit := 64, detail := [0], mask := 1#4096 <<< 64 }
    let prog3 : FuseUse := { setting := 1, bit := 1240, detail := [3], mask := (1#4096 <<< 1240) ||| (1#4096 <<< 1624) }
    does (.fuseUseComplete true) s (fun t => t.fuseBit 1788 && t.fuse.op == none && t.fuse.log.length == 1) = true ∧
    does (.fuseUseComplete false) s (fun t => t.fuse.op == none && t.fuse.log == [] && t.evs.queues.length == 4) = true ∧
    does (.fuseUseComplete true) tray (fun t => t == tray) = true ∧
    does (.fuseUseComplete true) (run [oneBit 2 449 [0]] none) (fun t => t.tok.keys == [] && t.tok.holder == none) = true ∧
    does (.fuseUseComplete true) (run [oneBit 4 1760 [1]] (some rec1)) (fun t => Map.look t.boot.records 1 == some rec1) = true ∧
    does (.fuseUseComplete true) (run [oneBit 7 1788 [4], oneBit 7 1789 [5]] none) (fun t =>
      t.fuseBit 1788 && !t.fuseBit 1789 && (t.fuse.op.map (·.uses.length)) == some 1 && t.fuse.log.length == 2 && t.evs == {}) = true ∧
    (tray.fuse.bits ||| prog.mask).extractLsb' prog.bit 385 ≠ prog.mask.extractLsb' prog.bit 385 ∧
    does (.fuseUseComplete true) (run [prog] none) (fun t => t.fuse.op == none && t.fuse.log == []) = true ∧
    (tray.fuse.bits ||| prog3.mask).extractLsb' prog3.bit 385 = prog3.mask.extractLsb' prog3.bit 385 ∧
    does (.fuseUseComplete true) (run [prog3] none) (fun t => t.keyState 3 == 1 && t.fuse.log.length == 1) = true := by
  decide +kernel

theorem wit_FirmwareCommandsComplete :
    let staged (n : BitVec 8) : State := { tray with fw := { bank1 := image, staged := n, bytes := 256 } }
    let signed (n : BitVec 8) : State := { tray with
      fw := { bank1 := signedImage, staged := n, bytes := 256 }, tok := { tray.tok with keys := [(0, imageKey)] } }
    served tray (.fwWrite (req 12) 16777212 [1, 2, 3, 4]) = true ∧ tray.memoriesWf = true ∧
    answers (.fwWrite (req 11) 0 [1, 2, 3]) tray .badField = true ∧ answers (.fwWrite (req 12) 16777213 [1, 2, 3, 4]) tray .badField = true ∧
    does (.fwWrite (req 12) 16777212 [1, 2, 3, 0xFF]) tray (fun t =>
      t.fw.bank1.mem == [(16777212, 1), (16777213, 2), (16777214, 3)] && t.fw.staged == 1) = true ∧
    begun (staged 1) (.fwVerify (req 4)) = true ∧
    does (.fwVerifyComplete true) (signed 2) (fun t => t.fw.staged == 3) = true ∧
    does (.fwVerifyComplete true) (staged 2) (fun t => t.fw.staged == 4) = true ∧ does (.fwVerifyComplete true) (staged 1) (fun t => t == staged 1) = true ∧
    does (.fwVerifyComplete false) (staged 2) (fun t => t == staged 2) = true ∧
    answers (.fwActivateNow (req 4)) (staged 4) .badField = true ∧
    answers (.fwActivateNextReset (req 4)) { staged 3 with
      fuse := { tray.fuse with op := some { uses := [], cred := 0, epoch := 5 } } } .busy = true ∧
    served (staged 3) (.fwActivateNextReset (req 4)) = true ∧ served (staged 5) (.fwActivateNow (req 4)) = true ∧
    does (.fwActivateNow (req 4)) (staged 3) (fun t => t.fw.armed == some true && t.boot.resetDue == some 3) = true := by
  decide +kernel

/-! ### Events, diagnostics and faults -/

/-- An event of partition 15. -/
def event15 : Event := { Event.mk0 0x0580 100 with part := 15 }

theorem wit_EventsAreQueuedInOrder :
    let full : List EvRec := List.replicate 256 { seq := 0, ev := event15 }
    let s : State := { tray with evs := { queues := [(3, full)], subs := [(15, [{ d := 3, port := 31, ep := 0 }])] } }
    let t := s.raise event15
    Map.lookD t.evs.queues 3 [] = full ∧ Map.lookD t.evs.lost 3 0 = 1 ∧
    Map.lookD t.evs.queues 0 [] = [{ seq := 0, ev := event15, sent := 100 }] ∧ Map.lookD t.evs.next 0 0 = 1 ∧
    (t.out.any fun o => o == .inband 3 31 event15) = true := by decide +kernel

theorem wit_EventCommandsComplete :
    let q : List EvRec := [{ seq := 4, ev := event15, sent := 0 - 24900 }, { seq := 5, ev := event15, sent := 0 - 24899 }]
    let s : State := { tray with evs := { queues := [(0, q)], next := [(0, 6)] } }
    let l : State := { tray with evs := { queues := [(0, q)], next := [(0, 6)], lost := [(0, 3)] } }
    let ib : Frame := { req 4 with chan := .ib 0, port := 31, cred := 0xFF, payloadLen := 4, sig := [] }
    let p := part15 .opened [] [(31, 15)]
    let me : Sub := { d := 0, port := 31, ep := p.endpointId 0 31 }
    let subs (m : List Sub) : State := { p with evs := { subs := [(15, m)] } }
    served s (.evtAck (req 4) 4) = true ∧ served s (.evtAck (req 4) 5) = true ∧
    does (.evtAck (req 4) 4) s (fun t => t.evs.queues == [(0, q.drop 1)]) = true ∧
    served l (.evtAck (req 4) 4) = true ∧
    does (.evtAck (req 4) 5) l (fun t => t.evs.lost == [] && (Map.lookD t.evs.queues 0 []).length == 1) = true ∧
    served p (.evtSubscribe ib 15) = true ∧ does (.evtSubscribe ib 15) p (fun t => t.evs.subs == [(15, [me])]) = true ∧
    does (.evtSubscribe ib 15) (subs [me]) (fun t => t.evs.subs == [(15, [me])]) = true ∧
    answers (.evtSubscribe ib 15) (subs (List.replicate 4 { d := 1, port := 0, ep := 0 })) .busy = true ∧
    served (subs [me]) (.evtUnsubscribe ib 15) = true ∧
    does (.evtUnsubscribe ib 15) (subs [me]) (fun t => t.evs.subs == [(15, [])]) = true ∧
    does .eventRetransmit s (fun t => t.out.length == 1 && ((Map.lookD t.evs.queues 0 []).map (·.sent)) == [100, 0 - 24899]) = true := by decide +kernel

theorem wit_DiagnosticsComplete :
    let unlocked : State := { tray with fuse := { bits := tray.fuse.bits ||| (1#4096 <<< 1780) } }
    let words : List (BitVec 32) := List.replicate 989 0
    tray.debugLocked = true ∧ answers (.diagWrite (req 16) 3 0 0 [5]) tray .debugLocked = true ∧
    answers (.diagWrite (req 3968) 3 1 0 words) tray .debugLocked = true ∧ unlocked.debugLocked = false ∧
    served unlocked (.diagWrite (req 3968) 3 1 0 words) = true ∧
    does (.diagWrite (req 16) 3 0 0 [5]) unlocked (fun t => tells .ok t && t.q3.unbound && !t.q2.unbound) = true ∧
    begun tray (.diagLoop (req 8) 3 71 2 4096) = true ∧ begun tray (.diagLoop (req 8) 3 71 1 0) = true ∧
    does (.diagLoop (req 8) 3 71 2 4096) tray (fun t => (t.q3.loop.map (·.queued)) == some 0 && t.q3.held.length == 2) = true ∧
    answers (.diagLoop (req 8) 3 71 1 0) (each fun x => { x with loop := some { count := 1, len := 4 } }) .busy = true ∧
    does (.loopbackComplete 3) (each fun x => { x with loop := some { count := 1, len := 4, queued := 1 } }) (fun t =>
      t.q3.loop != none) = true ∧
    does (.loopbackComplete 3) (each fun x => { x with loop := some { count := 1, len := 4 } }) (fun t =>
      t.q3.loop == none && t.q0.loop != none) = true := by decide +kernel

theorem wit_FaultSignalsComplete :
    let seen : State := { tray with notes := { applied := [(64 * 31 + 63, 50)] } }
    let h : Held := { id := 9, inPort := 0, outPort := 1, hdr := {}, data := [], bin := .queue, seg := 0, tick := 100 }
    let e := each fun x =>
      { (x.modBoth fun t => { t with dir := [(262143, { valid := true })] }) with held := [h, { h with id := 8 }] }
    let notice (decl : Tick) : Instr := .faultReach 3 69 true 0 31 63 0 decl
    tray.holds (!tray.isDown 69) 4 = true ∧ tray.plane = 0 ∧
    does (notice 51) seen (fun t => t.q3.tab.reachOf 63 == 0x7FFFFFFF && t.q3.collNext == [(51 + 2048, 31, true)]) = true ∧
    does (notice 50) seen (fun t => t == seen) = true ∧
    does (.faultReach 3 69 true 0 31 63 1 1) tray (fun t => t.q3.tab.reachOf 63 == BitVec.allOnes 32) = true ∧
    does (.diePowerLost 3) tray (fun t => t.q3 == {} && t.q2 == tray.q2 && t.fuse == tray.fuse) = true ∧
    does (.eccError 3 (.packet 9)) e (fun t => (t.q3.held.map (·.id)) == [8]) = true ∧
    does (.eccError 3 (.entry 262143)) e (fun t => !(t.q3.tab.entry 262143).valid && t.q3.held.length == 2) = true ∧
    does (.eccError 3 (.pot 63)) e (fun t => t.q3 == e.q3 && t.evs != e.evs) = true ∧
    does (.eccError 3 (.pot 63)) (each fun x => { x with pots := [(63, { pour := some { group := 5, gather := true, pour := 6 } })] })
      (fun t => t.q3.aborts.map (·.status) == [4]) = true := by decide +kernel

/-! ### Relay, IPv6, MSP and the FPSM -/

theorem wit_RelayAndIpv6Complete :
    let up := each fun x => x.modPort 63 fun _ => livePort
    let f : Frame := { req 0 with chan := .ib 3, port := 31, route := 0x87, cred := 0xFF }
    let r : SlotReq := { op := 0x0301, tag := 9, port := 31, origin := 0 }
    let back : State := { tray with mbx := { slots := [(16 * 7, r)], relayed := [(9, (3, 31, 0))] } }
    up.relayUpPort 3 7 = some 63 ∧ up.freeSlot 3 = some 112 ∧
    does (.fmpRelay f 0x0301 [1]) up (fun t => t.mbx.slots.length == 1 && t.out.length == 1) = true ∧
    answers (.fmpRelay f 0x0301 [1]) tray .badRoute = true ∧ answers (.fmpRelay { f with route := 0x88 } 0x0301 [1]) up .badRoute = true ∧
    answers (.fmpRelay f 0x0301 [1]) { up with mbx := { slots := (List.range 16).map fun k => (112 + k, r) } } .busy = true ∧
    tray.listening = true ∧ tray.boot.romOnly = false ∧
    does (.fmpRelayResponse 3 63 9 0 [2]) back (fun t => t.mbx.slots == [] && t.out == [.relay 3 31 0x0301 9 0 0 [2]]) = true ∧
    does (.icmpv6Echo true 5 1 2 [3]) tray (fun t => t.out == [.icmp true 5 1 2 [3]]) = true := by decide +kernel

/-- Some solicited address is not the port's own. -/
theorem wit_another_address : linkLocal true + 1 ≠ linkLocal true := by
  intro h; have := congrArg BitVec.toNat h; rw [BitVec.toNat_add] at this; simp at this; omega

theorem wit_MspOperationsComplete :
    let x : MspXfer := { b := false, mslot := 15, mlen := 0, mrlen := 8, hdrOk := true, payOk := false, clocked := 9 }
    let put : MspXfer := { x with mlen := 8, payOk := true }
    let r : RespCopy := { op := 0x0235, tag := 9, cmdSeq := 10, part := 0xFF, epoch := 5, status := .ok, payload := [1] }
    let s : State := { tray with
      mspA := { slots := [(15, .written)] }, mbx := { copies := [(47, r)] },
      evs := { queues := [(2, [{ seq := 4, ev := event15 }])] } }
    let asleep : State := { s with boot := { s.boot with stage := .alwaysOn } }
    let waits : State := { s with mspA := { ready := false } }
    xferSound x = true ∧ xferSound { x with mrlen := 4104 } = true ∧ s.mspA.ready = true ∧ (s.mspA.segment 8).1.length = 9 ∧
    does (.mspPoll x) s (fun t => t.mspA.reply.rop == 0 && !t.mspA.ready && t.out.length == 1) = true ∧
    does (.mspStatus x) s (fun t => t.mspA.reply.rop == 6 && t.mspA.reply.total == 16) = true ∧
    does (.mspSetLink x 8 1) s (fun t => t.mspA.lanes == 8 && t.mspA.repeat_) = true ∧
    does (.mspDoorbell { x with mlen := 8 }) s (fun t => t.mspA.reply.rcode == 1 && t.mspA.slot 15 == .written) = true ∧
    does (.mspDoorbell x) asleep (fun t => t.mspA.reply.rcode == 7 && t.mspA.slot 15 == .written) = true ∧
    does (.mspDoorbell { x with clocked := 5 }) s (fun t => t.mspA == s.mspA && t.out.length == 1) = true ∧
    does (.mspDoorbell x) waits (fun t => t.mspA == waits.mspA && t.mbx.ctr.length == 1) = true ∧
    does (.mspSetLink x 3 0) s (fun t => t.mspA.reply.rcode == 4) = true ∧
    does (.mspWrite put 4093 [1, 2, 3, 0]) s (fun t => t.mspA.reply.rcode == 4) = true ∧
    does (.mspReadEvent x 5) s (fun t => t.mspA.reply.rcode == 6) = true ∧
    does (.mspReadEvent x 0xFFFFFFFF) s (fun t => ((Map.lookD t.evs.queues 2 []).map (·.returned)) == [true]) = true ∧
    does (.mspWrite put 4092 [1, 2, 3, 0]) s (fun t => t.mspA.buf == [(65532, 1), (65533, 2), (65534, 3)]) = true ∧
    does (.mspDoorbell x) s (fun t => t.mspA.slot 15 == .busy) = true ∧
    does (.mspReadResp x 0) s (fun t => t.mspA.taken == [(15, true)] && t.mspA.reply.rcode == 0) = true ∧
    does (.mspReadEvent x 4) s (fun t => t.mspA.reply.total == 64) = true ∧ xferSound { x with mrlen := 6 } = false ∧
    does (.mspPoll { x with hdrOk := false }) s (fun t => t.out == [.mspSilent false] && t.mspA == s.mspA) = true ∧
    does (.mspReplyReady true) { s with mspB := { ready := false } } (fun t => t.mspB.ready && t.mspA == s.mspA) = true := by
  decide +kernel

theorem wit_FlashAndCoresComplete :
    let busy : State := { tray with fw := { flashBusy := true, lines := [3], misses := [(2, 5)] } }
    let reads : State := { tray with fw := { fpsm := { job := some (.line 7 0), left := 9 } } }
    let kept : State := { tray with fw := { lines := [1, 2] } }
    let cores : State := { tray with
      trace := { cores := [(1, { cond := .run, worked := 0 - 2048 }), (2, { cond := .sleep }), (3, {})], syncDue := true },
      pow := { domains := BitVec.allOnes 133 } }
    does (.xipMiss 3 0xFFFFFFFF) busy (fun t => t.fw.misses.length == 2 && t.out == []) = true ∧
    does (.xipMiss 0 64) kept (fun t => t.fw.lines == [2, 1] && t.out == []) = true ∧
    does (.xipMiss 0 0) kept (fun t => t.fw.lines == [1, 2] && t.fw.fpsm.fetching 0 && t.out.length == 1) = true ∧
    does (.xipMiss 0 448) reads (fun t => t == reads) = true ∧
    does (.xipMiss 0 0) reads (fun t => t.fw.fpsm.want == [(0, 0)] && t.out == []) = true ∧ reads.endPart.fw.lines = [7] ∧
    does .flashOpComplete busy (fun t => !t.fw.flashBusy && t.fw.misses == [] && t.fw.lines == [] && t.fw.fpsm.fetching 5) = true ∧
    does .flashOpComplete kept (fun t => t == kept) = true ∧
    does (.coreSleep 1) cores (fun t => (t.core 1).cond == .sleep) = true ∧
    does (.coreSleep 1) { cores with boot := { now := 2047 - 2048 } } (fun t => (t.core 1).cond == .run) = true ∧
    does (.coreSleep 0) cores (fun t => t.trace == cores.trace) = true ∧
    does (.coreOff 2) cores (fun t => (t.core 2).cond == .off && !t.pow.domains.getLsbD 130) = true ∧
    does (.coreWake 2) cores (fun t => (t.core 2).cond == .run) = true ∧
    does (.coreWake 3) cores (fun t => (t.core 3).cond == .run) = true ∧
    does .traceSync cores (fun t => !t.trace.syncDue && t.trace != cores.trace) = true ∧
    does .traceSync tray (fun t => t == tray) = true := by decide +kernel

/-! ### Ticks and mastership -/

/-- The tray with port `p` of every die in a state. -/
def port (p : Nat) (q : Port) : State := each fun x => x.modPort p fun _ => q

/-- A marker of tick 101, period 400 ns, two hops away, of lineage 3. -/
def marker2 : CtlWord := markerWord 101 28 1 false 2 3

theorem wit_TickBoundaryMovesTheNode :
    let s := port 69 livePort
    let free : State := { tray with tok := { tray.tok with release := some 101 }, pow := { rampNext := some { rackLimit := 7 } } }
    does (.tickBoundary 3) s (fun t => t.q3.now == 101 && t.q2.now == 100 &&
      t.out.any fun o => match o with | .word 3 69 w => mcrcOk w && cwType w == 0xA1 && mkCount w == 101 | _ => false) = true ∧
    does (.tickBoundary 4) free (fun t => t.boot.now == 101 && t.tok.holder == none && t.pow.ramp.rackLimit == 7 && t.tok.epoch == 5) =
      true := by decide +kernel

theorem wit_MarkersKeepTheNode :
    let old : MarkerInfo :=
      { count := 99, allowance := 0, period := 1, holdover := false, hop := 2, epoch := 3, tick := 99, offset := 0 }
    let child (st : TickState) (n : Nat) : State := each fun x =>
      { (x.modPort 69 fun _ => { livePort with marker := some old, missing := 1 }) with
        tick := { state := st, parent := some 69, epoch := 3, within := n, holdTicks := 262144, drop := some (84, 3) } }
    mcrcOk marker2 = true ∧
    does (.tickMarker 3 69 (ackWord 0) 0) (child .locked 0) (fun t => t.q3.ctr.length == 1 && t.q3.tick.parent == some 69) = true ∧
    does (.tickMarker 3 69 (marker2 + 256) 0) (child .locked 0) (fun t => t.q3.ctr != [] && t.q3.tick.parent == none) = true ∧
    does (.tickMarker 3 69 (markerWord 101 28 3 false 2 3) 0) (child .locked 0) (fun t =>
      t.q3.ctr.length == 1 && t.q3.tick.parent == none) = true ∧
    does (.tickMarker 3 69 (markerWord 101 28 2 false 2 3) 0) (child .locked 0) (fun t =>
      t.q3.tick.state == .tickFault && t.q3.tick.faultCause == 3) = true ∧
    does (.tickMarker 3 69 (markerWord 101 28 1 true 2 3) 0) (child .locked 0) (fun t =>
      t.q3.tick.state == .holdover && t.q3.tick.parent == none) = true ∧
    does (.tickMarker 3 69 marker2 0) (child .holdover 0) (fun t => t.q3.tick.state == .locked) = true ∧
    does (.tickMarker 3 69 marker2 24) (child .locked 4) (fun t =>
      t.q3.tick.hop == 3 && t.q3.tick.allowance == 28 && t.q3.tick.within == 5 && t.q3.now == 100) = true ∧
    does (.tickMarker 3 69 marker2 25) (child .locked 4) (fun t => t.q3.tick.within == 0) = true ∧
    does (.markerMissing 3 69) (child .locked 0) (fun t => t.q3.tick.state == .holdover && t.q3.tick.drop == some (100, 3)) = true ∧
    within (100 : Tick) 84 16 = false ∧ does (.reparentWaitEnd 3) (child .holdover 0) (fun t => t.q3.tick.drop == none) = true ∧
    does (.tickLock 3) (child .holdover 16) (fun t => t.q3.tick.state == .locked && t.q3.tick.everLocked) = true ∧
    does (.tickLock 3) (child .holdover 15) (fun t => t.q3.tick.state == .holdover) = true ∧
    does (.holdoverLimit 3) (child .holdover 0) (fun t => t.q3.tick.state == .tickFault && t.q3.tick.hold) = true := by decide +kernel

/-- A node without a parent takes up a marker two hops away, and none of 15 hops. -/
theorem wit_NoParentFifteenHopsAway :
    let s : State := each fun x => { (x.modPort 69 fun _ => livePort) with tick := {} }
    does (.tickMarker 3 69 marker2 0) s (fun t => t.q3.tick.nextParent == some 69) = true ∧
    does (.tickMarker 3 69 (markerWord 101 28 1 false 15 3) 0) s (fun t => t.q3.tick.nextParent == none) = true := by decide +kernel

theorem wit_TheMasterIsElected :
    let spine (c : Option (Byte × Tick)) : State := { (each fun x =>
        { (x.modPort 69 fun _ => livePort).modPort 0 (fun _ => livePort) with tick := { quiet := 16 } }) with
      boot := { tray.boot with ident := some { index := 0, spine := true, rack := 1, slot := 15 } },
      elect := { priority := 9, claim := c } }
    let w := claimWord 10 0 1 1
    (spine none).clockDie = some 0 ∧ (spine none).elect.nextEpoch = 1 ∧ mcrcOk w = true ∧
    does .tickClaimSend (spine none) (fun t => t.elect.claim == some (1, 100) && t.out.length == 2) = true ∧
    ((spine none).q0.newsClaim ((spine none).ownClaim 1)) = true ∧
    (let late := (spine none).allDies fun x => { x with bestClaim := [(1, w)] }
     late.q0.newsClaim (late.ownClaim 1) = false ∧
       does .tickClaimSend late (fun t => t.elect.withdrawn == some 1 && t.elect.claim == none && t.out.length == 2) = true) ∧
    does (.tickClaim 0 69 w) (spine none) (fun t => t.out == [.word 0 0 w]) = true ∧
    does (.tickClaim 0 69 w) ((spine none).allDies fun x => { x with bestClaim := [(1, claimWord 11 0 1 1)] }) (fun t => t.out == []) = true ∧
    betterClaim w ((spine none).ownClaim 1) = true ∧
    does (.tickClaim 0 69 w) (spine (some (1, 99))) (fun t => t.elect.claim == none && t.elect.withdrawn == some 1) = true ∧
    within (100 : Tick) 92 8 = false ∧
    does .masterTakeOffice (spine (some (1, 92))) (fun t => t.q0.tick.master && t.q0.tick.state == .locked && t.q0.now == 100) = true := by
  decide +kernel

/-! ### Links -/

/-- Codewords per tick and nominal pad of Table 04-1. -/
theorem test_tick_frame :
    ([200, 400, 800].map fun ns => [4, 2, 1].map fun w => (codewordsOf ns 0 w true, padBits ns 0 w true)) =
      [[(32, 5120), (16, 2560), (8, 1280)], [(65, 4800), (32, 5120), (16, 2560)], [(131, 4160), (65, 4800), (32, 5120)]] ∧
    ([200, 400, 800].map fun ns => (codewordsOf ns 0 1 false, padBits ns 0 1 false)) = [(3, 4880), (7, 4320), (15, 3200)] ∧
    ([200, 400, 800].map fun ns => codewordsOf ns 64 4 true) = [34, 68, 138] := by decide +kernel

/-- The field of the code: alpha^10 is alpha^3 + 1, and inverses. -/
theorem test_field : gfPow 10 = 9 ∧ gfMul 0x200 2 = 9 ∧ gfMul 9 (gfInv 9) = 1 ∧ gfPow 1023 = 1 ∧
    rsGenerator.length = 30 ∧ gfEval (1 :: rsGenerator) (gfPow 29) = 0 ∧ gfEval (1 :: rsGenerator) (gfPow 30) ≠ 0 := by decide +kernel

/-- A data block of zeros, a control block that begins with FILL of 7 words, and control blocks. -/
def blocks69 : List Block := .data 0 :: .control (fillWord 7) 0 :: List.replicate 18 (.control 0 0)

/-- The bridge frame of these blocks. -/
def line69 : Line := .frame (bridgeFrame blocks69)

theorem blocks_bits : blocks69.all (fun b => b.bits.length == 257 && Block.ofBits b.bits == b) = true := by decide +kernel

/-- Pieces of a list of words of one length are the words. -/
theorem pieces_flatMap {α β : Type} (k : Nat) (f : α → List β) (l : List α) (h : ∀ a ∈ l, (f a).length = k) :
    pieces k l.length (l.flatMap f) = l.map f := by
  induction l with
  | nil => rfl
  | cons a r ih =>
    have ha := h a (List.mem_cons_self ..)
    have hr := ih fun b hb => h b (List.mem_cons_of_mem _ hb)
    simp only [List.length_cons, pieces, List.flatMap_cons, List.map_cons]
    rw [← ha, List.take_left, List.drop_left, ha, hr]

theorem flatMap_length {α β : Type} (k : Nat) (f : α → List β) (l : List α) (h : ∀ a ∈ l, (f a).length = k) :
    (l.flatMap f).length = l.length * k := by
  induction l with
  | nil => simp
  | cons a r ih =>
    rw [List.flatMap_cons, List.length_append, h a (List.mem_cons_self ..), ih fun b hb => h b (List.mem_cons_of_mem _ hb),
      List.length_cons, Nat.succ_mul, Nat.add_comm]

/-- A bridge port receives the blocks of a frame. -/
theorem line69_received (q : Port) : q.receive 69 line69 = some blocks69 := by
  have hb := blocks_bits
  simp only [List.all_eq_true, Bool.and_eq_true, beq_iff_eq] at hb
  have hl := flatMap_length 257 Block.bits blocks69 fun a h => (hb a h).1
  have hp := pieces_flatMap 257 Block.bits blocks69 fun a h => (hb a h).1
  have hn : blocks69.length = 20 := rfl
  have hc (c : BitVec 32) : (bitList c).length = 32 := by simp [bitList]
  have hm : (blocks69.map Block.bits).map Block.ofBits = blocks69 := by
    rw [List.map_map]
    exact (List.map_congr_left fun a h => (hb a h).2).trans (List.map_id _)
  rw [hn] at hl hp
  replace hl : (blocks69.flatMap Block.bits).length = 5140 := hl
  simp only [Port.receive, line69, bridgeFrame]
  generalize hf : blocks69.flatMap Block.bits = m at *
  have h1 : (m ++ bitList (crcBits m)).length = 5172 := by rw [List.length_append, hl, hc]
  have h2 : (m ++ bitList (crcBits m)).drop 5140 = bitList (crcBits m) := by rw [← hl, List.drop_left]
  have h3 : (m ++ bitList (crcBits m)).take 5140 = m := by rw [← hl, List.take_left]
  rw [h1, h2, h3, hp, hm]
  simp

theorem wit_RetryAndFlowWordsComplete :
    let b0 : TxBlock := { bytes := 0, fill := 0 }
    let s := port 69 { livePort with txXon := 0, txAck := 65535, txNext := 2, rxUnacked := 63, retry := [b0, b0, b0],
                                     txPkts := [{ first := 65535, last := 65535, part := 0, dst := 0 }, { first := 0, last := 1, part := 0, dst := 0 }] }
    let q (t : State) : Port := t.q3.port 69
    let e : BitVec 21 := flowEntry 15 false 0x7F 0x01
    let two := port 69 { livePort with timeouts := 2, txNext := 1, retry := [b0] }
    let again (n : BitVec 16) : Out := .block 3 69 n b0
    mcrcOk (ackWord 0) = true ∧ cwType (ackWord 0) = 0xA5 ∧ cwType (nakWord 0) = 0xA6 ∧ cwType (flowWordOf e e e e) = 0xA3 ∧
    does (.flowWord 3 69 (flowWordOf e e e e)) s (fun t => bit (q t).txXon 127 && !bit (q t).txXon 126 && bit (q t).farWant 120) = true ∧
    does (.ack 3 69 (ackWord 0)) s (fun t => (q t).txAck == 0 && (q t).txPkts.length == 1) = true ∧
    does (.ack 3 69 (ackWord 3)) s (fun t => (q t) == (s.q3.port 69)) = true ∧
    does (.ack 3 69 (nakWord 0)) s (fun t => t.q3.ctr.length == 1 && (q t) == (s.q3.port 69)) = true ∧
    does (.nak 3 69 (nakWord 1)) s (fun t => t.out == [again 1] && (q t).retry.length == 3) = true ∧
    does (.nak 3 69 (nakWord 1)) (port 69 { livePort with nakSeq := 1, nakCount := 15 }) (fun t => (q t).state == .detect) = true ∧
    does (.nak 3 69 (nakWord 2)) s (fun t => t.out == [] && (q t).nakCount == 1) = true ∧
    cwType stompWord = 0xA7 ∧ mcrcOk stompWord = true ∧
    does (.stomp (3, 69) stompWord) (port 69 { livePort with rxStream := [1] }) (fun t => (q t).rxStream == []) = true ∧
    (s.q3.port 69).carries = true ∧ blocks69[0]? = some (.data 0) ∧ blocks69[1]? = some (.control (fillWord 7) 0) ∧
    (leftover 2 ((le 32 0).take (32 - 4 * fillOf (nextWord blocks69 0 none)))) = [0, 0, 0, 0] ∧
    does (.codewordUncorrectable (3, 69) (.frame [])) s (fun t => t.out == [.word 3 69 (nakWord 0)] && (q t).nakOut == 1) = true ∧
    does (.codewordUncorrectable (3, 69) (.frame [])) (port 69 { livePort with nakSent := some (0, 99) }) (fun t => t.out == []) = true ∧
    does (.codewordUncorrectable (3, 69) (.frame [])) (port 69 { livePort with nakSent := some (0, 90), nakOut := 15 }) (fun t =>
      (q t).state == .detect) = true ∧
    does (.retryTimeout 3 69) two (fun t => t.out == [again 0] && (q t).timeouts == 3) = true ∧
    does (.retryTimeout 3 69) (port 69 { livePort with timeouts := 3, txNext := 1, retry := [b0] }) (fun t =>
      (q t).state == .detect) = true := by decide +kernel

/-- The tray with port 63 of every die in a state, and every caddy's domain B good, with lane map 9 for that port. -/
def ext (q : Port) : State :=
  { (each fun x => x.modPort 63 fun _ => q) with
    bays := (List.range 8).map fun c => (c, { state := .active, taken := true, domB := true,
                                              eeprom := List.replicate 211 0 ++ [9] }) }

theorem wit_ProbesAndTrainingComplete :
    let q (t : State) : Port := t.q3.port 63
    let train (far : BitVec 4) (bad : BitVec 3) : State :=
      ext { state := .train, locked := 12, farLocked := far, badId := bad, measured := true, laneMap := 9 }
    let bridge (far : BitVec 4) : State := port 69 { state := .train, locked := 15, farLocked := far, measured := true }
    let down : State := port 31 { state := .train }
    let id := trainWord 0 false 0 0 0 0 5 3 false
    let widen := ext { livePort with lanes := 1, locked := 1, widen := true, training := true }
    let x1 : Port := { livePort with lanes := 1, fullRate := false, training := true, farLocked := 15 }
    mcrcOk (probeWord false 0 0 0) = true ∧ cwType (probeWord true 0 0 0) = 0xAB ∧ mcrcOk id = true ∧ cwType id = 0xA8 ∧
    (ext livePort).q3.probeDue 63 = true ∧
    does (.delayProbePeriodic 3 63 5) (ext livePort) (fun t => t.free == 1 && t.out.length == 1) = true ∧
    does (.delayProbePeriodic 3 63 5) (ext { livePort with probed := some 99 }) (fun t => t.free == 0 && t.out == []) = true ∧
    does (.delayProbe 3 63 (probeWord false 0 0 9) 0) (ext livePort) (fun t => (q t).marginFar == 9 && t.free == 1) = true ∧
    does (.delayProbeReply 3 63 (probeWord true 10 4 9) 34) (ext livePort) (fun t => (q t).delay == 10 && (q t).measured) = true ∧
    does (.farSignalDetect 3 63) (ext { state := .detect }) (fun t => (q t).state == .train && (q t).laneMap == 9) = true ∧
    does (.farSignalDetect 3 63) (each fun x => x.modPort 63 fun _ => { state := .detect }) (fun t => (q t).state == .detect) = true ∧
    tray.cablingCause 3 69 id = 0 ∧ down.cablingCause 3 31 id = 2 ∧
    does (.trainId 3 69 id) (bridge 0) (fun t => (t.q3.port 69).farSerial == 5 && (t.q3.port 69).farLocked == 3) = true ∧
    does (.trainId 3 31 id) down (fun t => (t.q3.port 31).badId == 2 && t.evs != tray.evs) = true ∧
    does (.trainId 3 63 (trainWord 0 false 0 0 0 0 5 3 true)) (ext livePort) (fun t => (q t).farLocked == 3) = true ∧
    does (.trainComplete (3, 63) 9) (train 8 0) (fun t => (q t).state == .activePw && (q t).lanes == 8 && t.q3.ctr == []) = true ∧
    does (.trainComplete (3, 63) 1) (train 12 2) (fun t =>
      (q t).state == .held && (q t).cause == 2 && (q t).lanes == 4 && t.q3.ctr.length == 1) = true ∧
    does (.trainComplete (3, 63) 9) (train 3 0) (fun t => (q t).state == .train) = true ∧
    does (.trainComplete (3, 69) 0) (bridge 15) (fun t => (t.q3.port 69).state == .active && (t.q3.port 69).lanes == 15) = true ∧
    does (.trainComplete (3, 69) 0) (bridge 7) (fun t => (t.q3.port 69).state == .train) = true ∧
    does (.laneLock 3 63 3) (ext { state := .train }) (fun t => (q t).locked == 8 && t.out.length == 1) = true ∧
    does (.laneLock 3 63 1) widen (fun t => bit (q t).locked 1 && (q t).lanes == 1) = true ∧
    does (.laneLock 3 63 1) (ext { livePort with lanes := 1, locked := 1, training := true, state := .switching }) (fun t =>
      bit (q t).locked 1 && t.out == []) = true ∧
    does (.widthReq 3 63 (widthWord 3 false 2 8 200)) (ext livePort) (fun t =>
      ((q t).sw.map (·.lanes)) == some 3 && (q t).lost == 8) = true ∧
    does (.widthReq 3 63 (widthWord 3 true 2 0 200)) (ext livePort) (fun t => (q t).sw == none && t.q3.ctr.length == 1) = true ∧
    does (.widthReq 3 63 (widthWord 0 false 2 0 200)) (ext livePort) (fun t => (q t).state == .detect) = true ∧
    does (.widthReq 3 69 (widthWord 3 false 2 0 200)) (port 69 livePort) (fun t => (t.q3.port 69).state == .detect) = true ∧
    does (.trainBoundExpiry 3 63) (ext x1) (fun t => !(q t).training && ((q t).sw.map (·.lanes)) == some 15) = true ∧
    does (.trainBoundExpiry 3 63) (ext { x1 with locked := 0 }) (fun t => (q t).training && (q t).boundOver) = true ∧
    does (.trainBoundExpiry 3 63) (ext { x1 with sw := some { lanes := 15, slow := false, reason := 1, tick := 200, byLoss := false, start := 90 } })
      (fun t => (q t).settle && (q t).boundOver) = true := by decide +kernel

theorem wit_SwitchesAndLossComplete :
    let q (t : State) : Port := t.q3.port 63
    let sw : Switch := { lanes := 3, slow := false, reason := 0, tick := 100, byLoss := true, start := 50 }
    let h : Held := { id := 0, inPort := 0, outPort := 63, hdr := {}, data := [], bin := .queue, seg := 0, tick := 100 }
    let leave (dest : LinkState) : State := each fun x =>
      { (x.modPort 63 fun _ => { livePort with leaveTo := some dest }) with held := [h, { h with outPort := 68 }] }
    let swept (lost : BitVec 4) : State := ext { livePort with state := .sweep, lanes := 8, lost := lost }
    does (.laneLoss 3 63 3) (ext livePort) (fun t => (q t).lost == 8 && (q t).sw.isSome && t.out.length == 1) = true ∧
    does (.laneLoss 3 63 3) (ext { livePort with lanes := 8, locked := 8, lost := 7 }) (fun t => (q t).state == .detect) = true ∧
    does (.laneLoss 3 63 3) (ext { livePort with lanes := 1 }) (fun t => (q t).locked == 7 && (q t).lost == 0) = true ∧
    does (.laneLoss 3 69 3) (port 69 livePort) (fun t => (t.q3.port 69).state == .detect) = true ∧
    does (.laneLoss 3 63 3) (swept 0) (fun t => (q t).lost == 8 && ((q t).sw.map (·.lanes)) == some 1) = true ∧
    does (.laneLoss 3 63 3) (swept 7) (fun t => (q t).state == .detect) = true ∧
    does (.switchStart 3 63) (ext { livePort with sw := some sw }) (fun t => (q t).state == .switching) = true ∧
    does (.switchComplete 3 63) (ext { livePort with sw := some sw, state := .switching }) (fun t =>
      (q t).state == .active && (q t).lanes == 3 && (q t).sw == none && (t.out.any fun o => o == .word 3 63 (nakWord 0))) = true ∧
    does (.switchComplete 3 63) (ext { livePort with sw := some { sw with slow := true }, state := .held }) (fun t =>
      (q t).state == .held && !(q t).fullRate) = true ∧
    does (.switchTimeout 3 63) (ext { livePort with sw := some sw, state := .switching }) (fun t => (q t).state == .detect) = true ∧
    does (.switchTimeout 3 63) (ext { livePort with sw := some { sw with byLoss := false, tick := 50 }, state := .switching })
      (fun t => (q t).state == .detect) = true ∧
    does (.linkFail 3 63) (ext { livePort with fails := [99, 98, 97] }) (fun t => (q t).state == .disabled && (q t).cause == 4) = true ∧
    does (.linkFail 3 63) (ext { livePort with sw := some sw }) (fun t => (q t).state == .active) = true ∧
    does (.linkHoldDone 3 63 true) (leave .held) (fun t => (q t).state == .held && (q t).cause == 3 && t.q3.held.length == 1) = true ∧
    does (.linkHoldDone 3 63 true) (leave .disabled) (fun t => (q t).state == .disabled) = true ∧
    does (.linkHoldDone 3 63 false) (leave .held) (fun t => (q t).leaveTo == some .held && (q t).state == .active) = true ∧
    does (.linkHoldDone 3 63 false) (ext { livePort with leaveTo := some .held }) (fun t => (q t).state == .held) = true := by
  decide +kernel

theorem wit_MarginSweepsComplete :
    let q (t : State) : Port := t.q3.port 69
    let near : SweepNear := { req := { sweepReq with side := 0 }, lane := 0, point := 0, lastSent := 100, since := 98 }
    let far (tick : Tick) : SweepFar := { word := sweepWordOf { sweepReq with side := 1 } 1 0 0, last := tick, since := 98 }
    let idle := port 69 { livePort with state := .held }
    let nearS := port 69 { livePort with state := .sweep, near := some near }
    let wins := port 69 { livePort with state := .sweep, near := some near, farSerial := 5 }
    let farS (tick : Tick) := port 69 { livePort with state := .sweep, far := some (far tick) }
    let w (op : BitVec 4) := sweepWordOf sweepReq op 0 0
    mcrcOk (w 1) = true ∧ cwType (w 1) = 0xAA ∧
    does (.sweepStart 3 69 (w 1)) idle (fun t => (q t).state == .sweep && (q t).far.isSome) = true ∧
    wins.startWins 3 69 = true ∧ does (.sweepStart 3 69 (w 1)) wins (fun t => t == wins) = true ∧
    nearS.startWins 3 69 = false ∧
    does (.sweepStart 3 69 (w 1)) nearS (fun t =>
      (q t).near == none && (q t).far.isSome && t.out.any fun o => match o with | .word _ _ w => cwType w == 0xAA | _ => false) = true ∧
    (farS 37).q3.farHolds 69 (w 2) = true ∧ (farS 36).q3.farHolds 69 (w 2) = false ∧
    does (.sweepKeepalive 3 69 (w 2)) (farS 37) (fun t => ((q t).far.map (·.last)) == some 100) = true ∧
    does (.sweepPoint 3 69 (w 3)) (farS 37) (fun t => ((q t).far.map (·.word)) == some (w 3)) = true ∧
    does (.sweepEnd 3 69 (w 5)) (farS 37) (fun t => (q t).state == .held && (q t).far == none) = true ∧
    does (.sweepEnd 3 69 (w 5)) idle (fun t => t.out == [.word 3 69 (swReply (w 5) 6 0)]) = true ∧
    does (.sweepKeepalive 3 69 (w 2)) idle (fun t => t.out.length == 1) = true ∧
    does (.sweepPoint 3 69 (w 3)) idle (fun t => t.out.length == 1) = true ∧ swId (w 6) = 4 ∧
    does (.sweepAborted 3 69 (w 6)) nearS (fun t => (q t).near == none && (q t).state == .held) = true ∧
    does (.sweepBusy 3 69 (w 7)) nearS (fun t => (q t).near == none && (q t).state == .held) = true ∧
    does (.sweepPoint 3 69 (w 3)) (port 69 { livePort with state := .sweep, near := some { near with req := { sweepReq with side := 1 } } })
      (fun t => ((q t).near.map (·.point)) == some 1) = true ∧
    does (.sweepFarTimeout 3 69) (farS 36) (fun t => (q t).state == .detect && (q t).far == none) = true ∧
    does (.sweepFarTimeout 3 69) (farS 37) (fun t => t == farS 37) = true ∧
    does (.sweepAborted 3 69 (w 6)) (port 69 { livePort with state := .sweep, near := some { near with req := { sweepReq with sweepId := 5 } } })
      (fun t => (q t).near.isSome && (q t).state == .sweep) = true ∧
    does (.sweepPointDone 3 69 9) (port 69 { livePort with state := .sweep, near := some { near with since := 99 } }) (fun t =>
      ((q t).near.map (·.point)) == some 0) = true ∧
    swFarRx (far 100).word = true ∧ does (.sweepPointDone 3 69 9) (farS 37) (fun t => t.out.length == 1 && t.q3 == (farS 37).q3) = true ∧
    does (.sweepKeepaliveSend 3 69) (port 69 { livePort with state := .sweep, near := some { near with lastSent := 50 } }) (fun t =>
      ((q t).near.map (·.lastSent)) == some 100) = true ∧
    sweepPoints near.req = some 2 ∧
    does (.sweepPointDone 3 69 9) { nearS with sweeps := [{ req := near.req }] } (fun t =>
      ((q t).near.map (·.point)) == some 1 && (t.sweeps.map (·.counts)) == [[(0, 9)]]) = true := by decide +kernel

/-! ### Caddies -/

/-- A CRC-32C step keeps 32 bits. -/
theorem crc32Step_lt (c : Nat) (h : c < 2 ^ 32) : crc32Step c < 2 ^ 32 := by
  unfold crc32Step
  have hs : c >>> 1 < 2 ^ 32 := by rw [Nat.shiftRight_eq_div_pow]; omega
  split
  · exact Nat.xor_lt_two_pow hs (by decide)
  · exact hs

theorem crc32Byte_lt (c : Nat) (b : Byte) (h : c < 2 ^ 32) : crc32Byte c b < 2 ^ 32 := by
  have h0 : c ^^^ b.toNat < 2 ^ 32 := Nat.xor_lt_two_pow h (by have := b.isLt; omega)
  have go : ∀ (l : List Nat) (x : Nat), x < 2 ^ 32 → l.foldl (fun x _ => crc32Step x) x < 2 ^ 32 := by
    intro l
    induction l with
    | nil => exact fun _ h => h
    | cons _ r ih => exact fun x h => ih _ (crc32Step_lt x h)
  exact go _ _ h0

theorem crc32c_lt (bs : List Byte) : crc32c bs < 2 ^ 32 := by
  have go : ∀ (l : List Byte) (x : Nat), x < 2 ^ 32 → l.foldl crc32Byte x < 2 ^ 32 := by
    intro l
    induction l with
    | nil => exact fun _ h => h
    | cons b r ih => exact fun x h => ih _ (crc32Byte_lt x b h)
  exact Nat.xor_lt_two_pow (go bs _ (by decide)) (by decide)

/-- Four bytes give back the number they were written from. -/
theorem leNat_le4 (n : Nat) (h : n < 2 ^ 32) : leNat (le 4 n) = n := by
  simp only [leNat, le, List.range, List.range.loop, List.map_cons, List.map_nil, List.foldr_cons, List.foldr_nil,
    BitVec.toNat_ofNat, Nat.shiftRight_eq_div_pow]
  omega

/-- An EEPROM with its CRC passes the check. -/
theorem eeprom_ok (body : List Byte) (h : body.length = 2044) (m : body.take 4 = [0x53, 0x48, 0x43, 0x44])
    (f : leNat ((body.drop 4).take 2) = 1) : eepromOk (body ++ le 4 (crc32c body)) = true := by
  have hl : (le 4 (crc32c body)).length = 4 := by simp [le]
  have h1 : (body ++ le 4 (crc32c body)).take 4 = body.take 4 := List.take_append_of_le_length (by omega)
  have h2 : ((body ++ le 4 (crc32c body)).drop 4).take 2 = (body.drop 4).take 2 := by
    rw [List.drop_append_of_le_length (by omega), List.take_append_of_le_length (by simp; omega)]
  have h3 : (body ++ le 4 (crc32c body)).drop 2044 = le 4 (crc32c body) := by rw [← h, List.drop_left]
  have h4 : (body ++ le 4 (crc32c body)).take 2044 = body := by rw [← h, List.take_left]
  have h5 : (le 4 (crc32c body)).take 4 = le 4 (crc32c body) := List.take_of_length_le (by omega)
  simp [eepromOk, h1, h2, h3, h4, h5, m, f, h, hl, leNat_le4 _ (crc32c_lt body)]

/-- Bytes 0 to 2,043 of the EEPROM of a caddy type. -/
def body (kind : Byte) : List Byte := [0x53, 0x48, 0x43, 0x44, 1, 0, kind] ++ List.replicate 2037 0

/-- EEPROM of a caddy type with its CRC. -/
def eeprom (kind : Byte) : List Byte := body kind ++ le 4 (crc32c (body kind))

theorem eeprom_passes (kind : Byte) : eepromOk (eeprom kind) = true :=
  eeprom_ok _ (by simp only [body, List.length_append, List.length_replicate, List.length_cons, List.length_nil]) rfl rfl

theorem eeprom_kind (kind : Byte) : (eeprom kind).getD 6 0 = kind := rfl

/-- A leaf tray with a bay in a state, both of its domains on and its last port in service. -/
def withBay (c : BayId) (b : Bay) : State :=
  ({ tray with pow := { tray.pow with domains := BitVec.allOnes _ } }.allDies fun x =>
    x.modPort (32 * (c.val % 2) + 31) fun _ => livePort).modBay c fun _ => b

theorem wit_CaddiesComplete :
    let lv (t : State) : Bool := ((t.die 3).port 63).leaving
    let down (t : State) : Bool := (bayPorts 7).all fun p => !((t.die 3).port p).up
    let a : Bay := { state := .domainA }
    let on : Bay := { state := .active, taken := true, eeprom := List.replicate 48 0 ++ [60, 70] }
    let hot : Bay := { on with hot := 2, warm := 2 }
    does (.caddyPresence 7) (withBay 7 {}) (fun t => (t.bay 7).state == .domainA) = true ∧
    (withBay 7 a).domainA 7 = true ∧
    does (.caddyIdRead 7 []) (withBay 7 a) (fun t => (t.bay 7).state == .refused && (t.bay 7).cause == 1) = true ∧
    does (.caddyDomainBGood 7) (withBay 7 on) (fun t => (t.bay 7).domB) = true ∧
    does (.caddyLeverOpen 7) (withBay 7 on) (fun t => (t.bay 7).state == .leaving && lv t) = true ∧
    does (.caddyLeavingDone 7 true) (withBay 7 { on with state := .leaving, lever := true }) (fun t =>
      (t.bay 7).state == .leaving && !(t.bay 7).taken && down t) = true ∧
    does (.caddyLeavingDone 7 true) { withBay 7 { on with state := .leaving, lever := true } with pow := tray.pow } (fun t =>
      (t.bay 7).state == .readyToRemove && down t) = true ∧
    does (.caddyLeavingDone 7 false) (withBay 7 { on with state := .leaving, lever := true }) (fun t => down t) = true ∧
    ((bayPorts 7).all fun p => (withBay 7 on).q3.emptied p) = true ∧
    does (.caddyPresence 7) (withBay 7 on) (fun t => t == withBay 7 on) = true ∧
    does (.caddyDomainBGood 7) (withBay 7 a) (fun t => t == withBay 7 a) = true ∧
    does (.caddyTempSample 7 700 0x80) (withBay 7 on) (fun t =>
      (t.bay 7).temp == ((withBay 7 on).bay 7).temp) = true ∧
    does (.caddyWithdrawn 7) (withBay 7 on) (fun t => t.bay 7 == {} && down t) = true ∧
    does (.caddyWithdrawn 7) (withBay 7 { on with state := .readyToRemove }) (fun t => t.bay 7 == {} && !down t) = true ∧
    does (.caddyLeverClose 7) (withBay 7 { on with state := .readyToRemove, lever := true }) (fun t =>
      (t.bay 7).state == .domainA && !lv t) = true ∧
    does (.caddyTempSample 7 700 0) (withBay 7 a) (fun t => (t.bay 7).temp == 700) = true ∧
    hot.critical = false ∧ does (.caddyTempSample 7 700 0) (withBay 7 hot) (fun t => (t.bay 7).critical && down t) = true ∧
    does (.caddyTempSample 7 699 0) (withBay 7 hot) (fun t => !(t.bay 7).critical && (t.bay 7).warm == 3 && !down t) = true := by
  decide +kernel

/-- The tray takes a CP caddy in bay 0, refuses it in bay 7, and refuses a CO caddy there that the cold rail cannot cool. -/
theorem wit_CaddiesAreTakenOrRefused :
    let a : Bay := { state := .domainA }
    let warm : State := { withBay 7 a with pow := { (withBay 7 a).pow with grade := 2 } }
    (withBay 0 a).refuses 0 (eeprom 1) = 0 ∧ (withBay 7 a).refuses 7 (eeprom 1) = 2 ∧ warm.refuses 7 (eeprom 3) = 3 := by
  simp only [State.refuses, eeprom_passes, eeprom_kind]
  decide +kernel

/-! ### Packets -/

/-- Partition 15 OPEN on every die with segment 46 and down port 31, three ports in service, and other tables at choice. -/
def open15 (f : Tables → Tables) : State := each fun x =>
  { (x.modBoth fun t => f { t with parts := [(15, { state := .opened, dirSize := 262144 })], portPart := [(31, 15)],
                                   segs := [(46, { owner := some 15, last := some (15, 0), inQuota := true })] }) with
    usable := BitVec.allOnes 72, ports := [(31, livePort), (63, livePort), (69, livePort)] }

/-- A packet of partition 15 from endpoint 127, which is down port 31 of Q3, to endpoint 2047. -/
def hdr15 (vc : BitVec 3) (type : BitVec 5) (len : BitVec 13) : Hdr := { dst := 2047, src := 127, part := 15, vc := vc, type := type, len := len }

/-- Port 69 of every die has no permission to send. -/
def stopped (s : State) : State := s.allDies fun x => x.modPort 69 fun q => { q with txXon := 0 }

/-- Last packet in the buffer of Q3. -/
def lastHeld (t : State) : Option Held := t.q3.held.getLast?

theorem wit_PacketsAreCheckedAndForwarded :
    let four : List Byte := [1, 2, 3, 4]
    let spray := hdr15 3 0x10 4
    let circ := { hdr15 5 0x14 4 with circuit := 4095 }
    let pos := { hdr15 6 0x18 4 with seqId := 63, pos := 64 }
    let idle := open15 fun t =>
      { t with route0 := [(2047, setFld routeEntry 2 7 (69#7))], leases := [(4095, 101)],
               circuits := [(4095, circuit15 ||| (127#64 <<< 32) ||| (2047#64 <<< 43))] }
    let s := stopped idle
    let e : DirEntry := { valid := true, part := 15, seqId := 63, block := 1, owner := 2047, install := 90, expiry := 150 }
    let r := stopped (open15 fun t =>
      { t with route0 := [(2047, setFld routeEntry 2 7 (69#7))], seqs := [(64 * 15 + 63, desc2)], dir := [(262143, e)] })
    let lp := each fun x => { x with loop := some { count := 1, len := 4 } }
    let missed : Held := { id := 9, inPort := 31, outPort := 0, hdr := pos, data := four, bin := .missed 1, seg := 46, tick := 100 }
    let m := (open15 id).allDies fun x => { x with held := [missed] }
    let part (q : Part) : State := tables fun u => { u with parts := [(15, q)], portPart := [(31, 15)] }
    let full := s.allDies fun x => { x with held := [{ id := 1, inPort := 31, outPort := 69, hdr := hdr15 3 0x10 4096, data := [], bin := .queue,
                                                       seg := 46, cells := [(46, 8192)], tick := 100 }] }
    let waits := s.allDies fun x => { x with drained := [(123, true)] }
    (each id).takes 3 31 = false ∧
    does (.spray 3 31 spray.toWord ⟨four, 5⟩) (each id) (fun t => t.q3 == { tray.q3 with clock := 5 }) = true ∧
    does (.spray 3 63 spray.toWord ⟨four, 0⟩) ((part {}).allDies fun x => { x with ports := [(63, livePort)] }) (fun t =>
      t.q3.held == [] && Map.lookD t.q3.ctr (cPort 3 3 63) 0 == 1) = true ∧
    does (.spray 3 63 spray.toWord ⟨four, 0⟩) full (fun t => t.q3.held.length == 1 && t.evs != tray.evs) = true ∧
    does (.spray 3 63 spray.toWord ⟨four, 0⟩) waits (fun t => (t.q3.held.map (·.bin)) == [.drained]) = true ∧
    does (.spray 3 63 spray.toWord ⟨four, 0⟩) idle (fun t => t.q3.held == [] && t.out.length == 4) = true ∧
    s.takes 3 31 = true ∧ s.ingressFault 3 31 (spray.toWord ^^^ 1) = some 0 ∧
    does (.packetIngress 3 31 (spray.toWord ^^^ 1) ⟨four, 0⟩) s (fun t => t.q3.held == [] && t.q3.ctr != []) = true ∧
    s.ingressFault 3 31 spray.toWord = none ∧
    does (.mbxReq 3 31 (hdr15 0 0x01 4).toWord ⟨four, 0⟩) s (fun t => t.out == [.mailbox 3 31 (hdr15 0 0x01 4) four]) = true ∧
    s.q3.hasRoom (8 * 15 + 3) 4 = true ∧ s.q3.pickSeg 15 4096 = some (46, []) ∧
    does (.spray 3 63 spray.toWord ⟨four, 0⟩) s (fun t =>
      ((lastHeld t).map fun h => (h.outPort, h.hdr.dst, h.data)) == some (69, 2047, four)) = true ∧
    does (.circuitData 3 63 circ.toWord ⟨four, 0⟩) s (fun t => ((lastHeld t).map fun h => (h.outPort, h.bin)) == some (69, .circuit)) =
      true ∧
    does (.spray 3 31 spray.toWord ⟨four, 0⟩) s (fun t => (t.q3.spraySeq.map (·.2)) == [1]) = true ∧
    (match r.q3.resolve pos with | .ok o => o == 2047 | .error _ => false) = true ∧
    does (.posReq 3 31 pos.toWord ⟨four, 0⟩) r (fun t => ((lastHeld t).map fun h => (h.outPort, h.hdr.dst)) == some (69, 2047)) = true ∧
    (match s.q3.resolve pos with | .ok _ => false | .error st => st == 2) = true ∧
    does (.posReq 3 31 pos.toWord ⟨four, 0⟩) s (fun t =>
      ((lastHeld t).map fun h => (h.outPort, h.hdr.dst, h.hdr.rstat)) == some (31, 127, 2)) = true ∧
    does (.notResidentConvert 3 9) m (fun t => (t.q3.held.map fun h => (h.hdr.type, h.hdr.rstat)) == [(0x1B, 1)]) = true ∧
    lp.ingressFault 3 71 (hdr15 0 0x1F 4).toWord = none ∧
    does (.diag 3 (hdr15 0 0x1F 4).toWord ⟨four, 0⟩) lp (fun t => (t.q3.loop.map (·.received)) == some 1) = true := by decide +kernel

/-- Packets of the other rows are taken in as their row says. -/
theorem test_other_packet_rows :
    let s := stopped (open15 fun t => { t with route0 := [(2047, setFld routeEntry 2 7 (69#7))] })
    let to69 (t : State) : Bool := ((lastHeld t).map (·.outPort)) == some 69
    does (.packetIngress 3 63 (hdr15 4 0x11 0).toWord ⟨[], 0⟩) s to69 = true ∧ does (.posRsp 3 63 (hdr15 7 0x1A 0).toWord ⟨[], 0⟩) s to69 = true ∧
    does (.echoNote 3 63 (hdr15 4 0x12 0).toWord ⟨[], 0⟩) s to69 = true ∧
    does (.mbxRsp 3 63 (hdr15 0 0x02 0).toWord ⟨[], 0⟩) s (fun t => t.out.length == 1) = true ∧
    does (.mbxEvt 3 63 (hdr15 0 0x03 0).toWord ⟨[], 0⟩) s (fun t => t.out.length == 1) = true := by decide +kernel

/-- Group 4095 of partition 15: one rank, `CAP` 1, home block 0 and root on Q3 of tray 0 (leaf 3), timeout 64. -/
def group15 : Group :=
  { control := control1 ||| 1 ||| (15#128 <<< 1) ||| (1#128 <<< 50) ||| (3#128 <<< 61) ||| (1#128 <<< 73) ||| (64#128 <<< 85), blockHome := 0x83 }

/-- The bytes of a blend head and what follows it. -/
def headed (b : BlendHead) (rest : List Byte) : List Byte := le 32 b.word.toNat ++ rest

theorem wit_PoursTakeTheirPackets :
    let g (t : Tables) : Tables := { t with groups := [(4095, group15)], ranks := [(2048 * 15, 0x807F)] }
    let leaf := open15 g
    let inner : Group := { group15 with control := group15.control ^^^ (1#128 <<< 73) }
    let sg (t : Tables) : Tables := { t with groups := [(4095, inner)], ranks := [(2048 * 15, 0x807F)] }
    let spine : State := { (open15 sg).allDies fun x => { x with ports := [(3, livePort), (63, livePort)] } with
      boot := { tray.boot with ident := some { index := 0, spine := true, rack := 1, slot := 15 } } }
    let c : Hdr := { hdr15 1 0x08 4 with group := 4095, pour := 7 }
    let v (vc : BitVec 3) (type : BitVec 5) (len : BitVec 13) : Hdr := { hdr15 vc type len with group := 4095, pour := 7, dst := 96 }
    let k : PourKey := { group := 4095, gather := false, pour := 7 }
    let two := headed { kind := 2, gather := false, last := true, pos := 0, offset := 0, pourLen := 4 } [1, 2, 3, 4]
    let one := headed { kind := 1, gather := false, last := true, pos := 0, pourLen := 4 } [1, 2, 3, 4]
    let away := open15 fun t => { g t with groups := [(4095, { group15 with blockHome := 0x80 })] }
    let six := headed { kind := 6, gather := false, last := true, pos := 0, abort := 3 } []
    let four := headed { kind := 4, gather := false, last := true, pos := 0, pourLen := 4 } [1, 2, 3, 4]
    gValid group15.control = true ∧ gPart group15.control = 15 ∧ leaf.q3.hasRoom c.key 4 = true ∧
    leaf.rankOf 3 group15.control 127 = some 0 ∧ (leaf.q3.view.group 4095).home 0 = some (leaf.leafIndex 3) ∧
    leaf.q3.runSoFar k 0 = (0, false) ∧ capacity group15.control false = 256 ∧
    ([0, 1, 2].all fun e => !leaf.needsSibling 3 k (leaf.leafIndex e)) = true ∧
    does (.contrib 3 31 c.toWord ⟨[1, 2, 3, 4], 0⟩) leaf (fun t =>
      ((t.q3.pourAt k .level1).bind fun q => (Map.look q.inputs 0).map fun n => (n.len, n.last)) == some (4, true)) = true ∧
    does (.gatherIn 3 31 ({ c with type := 0x09 }).toWord ⟨[1, 2, 3, 4], 0⟩) leaf (fun t =>
      (t.q3.pourAt { k with gather := true } .level1).isSome) = true ∧
    does (.contrib 3 31 ({ c with vc := 2 }).toWord ⟨[1, 2, 3, 4], 0⟩) leaf (fun t => t.q3.pours == [] && t.q3.ctr != []) = true ∧
    does (.contrib 3 31 c.toWord ⟨[1, 2, 3, 4], 0⟩) (open15 id) (fun t => t.q3.pours == [] && t.q3.ctr != []) = true ∧
    does (.contrib 3 31 c.toWord ⟨[1, 2, 3, 4], 0⟩) (leaf.allDies fun x => { x with aborts := [{ key := k, status := 4, tick := 90, until_ := 900 }] })
      (fun t => t.q3.pours == [] && (t.q3.held.map (·.outPort)) == [31]) = true ∧
    (away.q3.view.group 4095).home 0 = some 0 ∧
    does (.contrib 3 31 c.toWord ⟨[1, 2, 3, 4], 0⟩) away (fun t => (t.q3.relayUps.map fun o => (o.rank, o.kept, o.last)) == [(0, 4, true)]) =
      true ∧
    does (.blendPacket 3 63 (v 1 0x08 36).toWord ⟨one, 0⟩) leaf (fun t =>
      ((t.q3.pourAt k .level2).bind fun q => (Map.look q.inputs 0).map fun n => (n.len, n.last)) == some (4, true)) = true ∧
    does (.blendAbort 3 63 (v 1 0x08 32).toWord ⟨six, 0⟩) leaf (fun t => (t.q3.abortDue.map fun a => a.2.1) == [3]) = true ∧
    ((leaf.abortPour 3 k 3 true).q3.record k).map (·.status) = some 3 ∧
    (let due := leaf.setDie 3 { leaf.q3 with abortDue := [(k, 3, false, true)] }
     (due.settleAborts 3).q3.abortDue = [] ∧ ((due.settleAborts 3).q3.record k).map (·.status) = some 3) ∧
    spine.isSpine = true ∧ two.length = 36 ∧
    does (.blendPacket 3 63 (v 1 0x08 36).toWord ⟨two, 0⟩) spine (fun t =>
      ((t.q3.pourAt k .level3 0).bind fun q => (Map.look q.inputs 0).map fun n => (n.len, n.last, n.data)) ==
        some (4, true, [(0, [1, 2, 3, 4])])) = true ∧
    spine.q3.deliveryReady k = false ∧
    does (.blendAbort 3 63 (v 1 0x08 32).toWord ⟨six, 0⟩) spine (fun t => ((t.q3.record k).map (·.status)) == some 3) = true ∧
    leafOf (v 1 0x08 36).dst = 3 ∧ spine.q3.downTo 3 = some 3 ∧
    does (.blendPacket 3 63 (v 1 0x08 36).toWord ⟨four, 0⟩) spine (fun t =>
      ((lastHeld t).map fun h => (h.outPort, h.data)) == some (3, four)) = true := by decide +kernel

/-! ### What leaves a die -/

/-- A packet of partition 15 queued for port 69, and one of its circuit. -/
def queued15 : Held := { id := 7, inPort := 31, outPort := 69, hdr := hdr15 4 0x11 4, data := [1, 2, 3, 4], bin := .queue, seg := 46, tick := 99 }
def slotted15 : Held := { queued15 with hdr := { hdr15 5 0x14 4 with circuit := 4095 }, bin := .circuit }

/-- Q3 with packets held and the circuit of slot 0 on port 69. -/
def sending (q : Port) (l : List Held) : State :=
  (open15 fun t => { t with circuits := [(4095, circuit15)], leases := [(4095, 1000)] }).allDies fun x =>
    { (x.modPort 69 fun _ => q) with held := l }

/-- A queued packet leaves with XON, from the pool with the pool's, and not without. -/
theorem wit_SentOnlyWithPermission :
    let pool : Held := { queued15 with seg := 47 }
    let sent (t : State) : Bool := t.out.head? == some (.packet 3 69 queued15.hdr.toWord [1, 2, 3, 4])
    does (.egressSelect 3 69 1) (sending livePort [queued15]) sent = true ∧
    does (.egressSelect 3 69 1) (sending { livePort with txXon := 0 } [queued15]) (fun t => t.out == []) = true ∧
    does (.egressSelect 3 69 1) (sending { livePort with txPool := true, txXon := 0 } [pool]) sent = true ∧
    does (.circuitSlotSend 3 69 0) (sending livePort [slotted15]) (fun t => t.out.length == 4) = true ∧
    does (.packetIngress 3 63 (hdr15 4 0x11 0).toWord ⟨[], 0⟩) (open15 fun t => { t with route0 := [(2047, setFld routeEntry 2 7 (69#7))] })
      (fun t => t.out.any fun o => match o with | .packet d p _ _ => d == 3 && p == 69 | _ => false) = true := by decide +kernel

theorem wit_EgressAndNoticesComplete :
    let s := sending livePort [queued15]
    let c := sending livePort [slotted15]
    let x := sending { livePort with txXon := 0 } [slotted15]
    let spine : State := { (each fun x => { x with ports := [(3, livePort)] }) with
      boot := { tray.boot with ident := some { index := 0, spine := true, rack := 1, slot := 15 } },
      notes := { due := [(64 * 31 + 63, (true, 90))], sent := [({ plane := 0, spine := 1, leaf := 2, restored := true, decl := 9 }, 36)] } }
    let loop : State := each fun x => { x with loop := some { count := 1, len := 4 },
                                               held := [{ queued15 with outPort := 71, seg := 47, hdr := { type := 0x1F, len := 4 } }] }
    s.sends 3 69 = true ∧ tray.sends 3 69 = false ∧ does (.egressSelect 3 69 1) tray (fun t => t == tray) = true ∧
    does (.egressSelect 3 71 1) loop (fun t => t.q3.held == [] && t.out.length == 1) = true ∧ s.slotHead 3 69 1 = none ∧
    (c.slotHead 3 69 0).isSome = true ∧ s.q3.overrunAt 69 0 = false ∧
    does (.egressSelect 3 69 0) c (fun t => t.q3.held == [] && t.out.length == 4) = true ∧
    (((s.q3.port 69).choose (s.startable 3 69 1)).2.map (·.id)) = some 7 ∧ 1 % s.q3.ns ≠ 0 ∧
    does (.egressSelect 3 69 1) s (fun t => t.out.length == 4 && t.q3.held == [] && (t.q3.port 69).txNext == 2) = true ∧
    ((c.q3.slotPacket 69 0).map (·.id)) = some 7 ∧ c.slotReady 3 69 0 slotted15 = true ∧ slotUnits 400 livePort = 8 ∧
    does (.circuitSlotSend 3 69 0) c (fun t => t.out.length == 4 && t.q3.held == []) = true ∧
    (x.q3.port 69).permits slotted15 = false ∧
    does (.circuitSlotSend 3 69 0) x (fun t => t.out == [] && t.q3.held.length == 1 && t.q3.ctr != []) = true ∧
    spine.listening = true ∧ spine.isSpine = true ∧
    does (.reachNoticeSend 31 63) spine (fun t => t.notes.due == [] && t.notes.sent.length == 2 && t.out.length == 4) = true ∧
    within (100 : Tick) 36 64 = false ∧
    does .noticeRepeat spine (fun t => t.notes.sent == [] && t.out.length == 4) = true := by decide +kernel

/-! ### Boundaries, flow control and the end of jobs -/

theorem wit_BoundaryEffectsComplete :
    let flip (f : Tick) := tables fun u => { u with vers := [(15, { v1 := .sealed, flip := some f })] }
    let ling (r : Tick) := tables fun u => { u with vers := [(15, { sel := true, v0 := .linger, v1 := .active, retire := some r })] }
    let map (e : Tick) : State :=
      (open15 fun t => { t with ranks := alias0 }).allDies fun x => { x with remaps := [(15, { rank := 0, spare := 2047, epoch := 3, effect := e })] }
    let coll := each fun x => { x with collNext := [(100, 31, true), (101, 0, true)] }
    let gap (t : Tick) := each fun x => { x with sprayRx := [(flowKey 15 0 2047, { timer := some t })], held := [] }
    let idle (t : Tick) (l : List Held) : State := each fun x =>
      { (x.modBoth fun u => { u with parts := [(15, { state := .opened, quiesced := 0x80 })] }) with idleFrom := [(127, t)], held := l }
    let h7 : Held := { queued15 with hdr := hdr15 7 0x1A 0 }
    does (.routeFlipEffect 3 15) (flip 100) (fun t => t.q3.tab.ver 15 == { sel := true, v0 := .linger, v1 := .active, retire := some 4196 }) =
      true ∧
    does (.routeFlipEffect 3 15) (flip 101) (fun t => t.q3 == (flip 101).q3) = true ∧
    does (.routeRetire 3 15) (ling 100) (fun t => (t.q3.tab.ver 15).v0 == .retired && (t.q3.tab.ver 15).retire == none) = true ∧
    does (.routeRetire 3 15) (ling 101) (fun t => t.q3 == (ling 101).q3) = true ∧
    does (.leaseExpiry 3 4095) coll (fun t => t == coll) = true ∧
    does (.remapEffect 3 15) (map 100) (fun t =>
      t.q3.tab.aliasOf 15 0 100 == some 2047 && Map.look t.q3.tab.lost 0 == some 100 && t.q3.remaps == []) = true ∧
    does (.remapEffect 3 15) (map 101) (fun t => t == map 101) = true ∧
    does (.collOutEffect 3) coll (fun t => t.q3.tab.collOut == 0x80000000 && t.q3.collNext == [(101, 0, true)]) = true ∧
    within (100 : Tick) 84 16 = false ∧ does (.gapTimeout 3 15 0 2047) (gap 84) (fun t => t.q2 == (gap 84).q2) = true ∧
    does (.gapTimeout 3 15 0 2047) (gap 85) (fun t => t == gap 85) = true ∧
    does (.drainedEntry 3 15 7) (idle 36 []) (fun t => t.q3.drained == [(127, true)]) = true ∧
    does (.drainedEntry 3 15 7) (idle 37 []) (fun t => t.q3.drained == []) = true ∧
    does (.drainedEntry 3 15 7) (idle 36 [h7]) (fun t => t.q3.drained == []) = true := by decide +kernel

theorem wit_FlowAndThrottleComplete :
    let on (f : Port → Port) : State := (open15 id).allDies fun x => x.modPort 69 f
    let want := on fun q => { q with farWant := setBit 0 123 true }
    let has (r : Tick) := on fun q => { q with rxXon := setBit 0 123 true, lastRx := [(123, r)] }
    let cong (m : BitVec 2) (n : Nat) (th : Map Bool) : State :=
      (open15 fun t => { t with cong := [(123, { mode := m, throttle := 4096 })] }).allDies fun x =>
        { x with ports := [(69, { livePort with lanes := 1 })], held := (List.range n).map fun i => { queued15 with id := i, hdr := hdr15 3 0x10 4096 }, throttled := th }
    let k := queueKey 69 15 3
    let window (w : Option (Map Nat)) (n : Nat) : State := each fun x => { x with ended := w, runs := [(k, n, false)] }
    want.q3.wanting 123 = [69] ∧ want.withholds 3 69 123 = false ∧
    ((want.q3.resSum 123 : Int) + (want.q3.skid 69 : Int) + 258 ≤ want.q3.roomOf 123) ∧
    does (.xonGrant 3 15 3) want (fun t => (t.q3.port 69).holdsXon 123 && t.out.length == 2) = true ∧
    does (.xonIdleRevoke 3 69 15 3) (has 84) (fun t => !(t.q3.port 69).holdsXon 123 && t.out.length == 2) = true ∧
    does (.xonIdleRevoke 3 69 15 3) (has 85) (fun t => t == has 85) = true ∧
    (cong 1 2 []).throttleDue 3 69 15 3 = some false ∧ (cong 2 5 []).throttleDue 3 69 15 3 = some true ∧
    (cong 1 0 []).throttleDue 3 69 15 3 = none ∧
    does (.throttleEngage 3 69 15 3) (cong 1 2 []) (fun t => t.q3.throttled == [(k, false)] && t.q3.window == [(k, 2)]) = true ∧
    does (.throttleEngage 3 69 15 3) (cong 1 0 []) (fun t => t.q3.throttled == []) = true ∧
    (cong 1 2 [(k, false)]).q3.throttleOver 69 15 3 false = false ∧ (cong 1 0 [(k, false)]).q3.throttleOver 69 15 3 false = true ∧
    does (.throttleEnd 3 69 15 3) (cong 1 2 [(k, false)]) (fun t => t.q3.throttled == [(k, false)]) = true ∧
    does (.throttleEnd 3 69 15 3) (cong 1 0 [(k, false)]) (fun t => t.q3.throttled == []) = true ∧
    does (.oversubWindowEnd 3) (window none 15) (fun t => t == window none 15) = true ∧
    does (.oversubWindowEnd 3) (window (some [(k, 2)]) 14) (fun t => t.q3.runs == [(k, 15, true)] && t.out == []) = true ∧
    does (.oversubWindowEnd 3) (window (some [(k, 2)]) 15) (fun t => t.q3.runs == [(k, 16, true)] && t.evs != State.reset.evs) = true := by
  decide +kernel

theorem wit_PoursZeroingAndFencesComplete :
    let k : PourKey := { group := 4095, gather := true, pour := 7 }
    let q (first : Tick) (i : Map Input) : Pour :=
      { key := k, part := 15, place := .level2, pot := none, first := first, inputs := i, lastIn := 99 }
    let s (l : List Pour) (a : List AbortRec) : State := (open15 fun t => { t with groups := [(4095, group15)] }).allDies fun x =>
      { x with pours := l, aborts := a }
    let full : Map Input := [(0, { pos := 0, last := true, len := 4, data := [(0, [1, 2, 3, 4])] })]
    let rec1 (t : Tick) : AbortRec := { key := k, status := 4, tick := 36, until_ := t }
    let job (n : Nat) : State := each fun x =>
      { (x.modBoth fun t => { t with parts := [(15, { state := .reopening })], segs := [(46, { owner := some 15 })] }) with
        segJobs := [{ item := 46, endNs := n }], potJobs := [{ item := 63, endNs := n }], pots := [(63, { zeroing := true })] }
    let ret := each fun x =>
      { (x.modBoth fun t => { t with segs := [(46, { owner := some 15, returning := true })] }) with segJobs := [] }
    let hit (st : PartState) : State := each fun x =>
      { (x.modBoth fun t => { t with parts := [(15, { state := st })] }) with
        touched := 0x8000, ports := [(69, { livePort with rxXon := BitVec.allOnes 128 })] }
    let cut (f : Tick) : State := each fun x =>
      { (x.modBoth fun t => { t with parts := [(15, { state := .fenced })] }) with fencedAt := [(15, f)], held := [queued15] }
    (q 90 full).complete group15.control = true ∧
    does (.blendStageStart 3 k .level2) (s [q 90 full] []) (fun t => (t.q3.pourAt k .level2 0).all (·.started)) = true ∧
    (let r : Pour := { q 90 full with key := { k with gather := false } }
     let w := s [r] []
     needsPot r.key .level2 = true ∧ does (.blendStageStart 3 r.key .level2) w (fun t =>
       (t.q3.pourAt r.key .level2 0).any (fun u => !u.started) && t.q3.ctr != []) = true) ∧
    does (.blendStageStart 3 k .level2) (s [q 90 []] []) (fun t => t == s [q 90 []] []) = true ∧
    does (.pourTimeout 3 k .level2) (s [q 36 []] []) (fun t => ((t.q3.record k).map (·.status)) == some 4 && t.q3.pours == []) = true ∧
    does (.pourTimeout 3 k .level2) (s [q 37 []] []) (fun t => t == s [q 37 []] []) = true ∧
    does (.abortRecordExpiry 3 k) (s [] [rec1 100]) (fun t => t.q3.aborts == []) = true ∧
    does (.abortRecordExpiry 3 k) (s [] [rec1 101]) (fun t => t == s [] [rec1 101]) = true ∧
    does (.potZeroDone 3) (job 40000) (fun t => t.q3.potJobs == [] && !(t.q3.pot 63).zeroing) = true ∧
    does (.potZeroDone 3) (job 40001) (fun t => t == job 40001) = true ∧
    does (.segmentZeroDone 3) (job 40000) (fun t => t.q3.segJobs == [] && (t.q3.tab.seg 46).inQuota) = true ∧
    does (.segmentZeroDone 3) (job 40001) (fun t => t.q3.segJobs.length == 1 && !(t.q3.tab.seg 46).inQuota) = true ∧
    does (.segmentZeroDone 3) ret (fun t => (t.q3.tab.seg 46).owner == none) = true ∧
    does (.partOpenReady 3 15) (job 40000) (fun t => (t.q3.tab.part 15).state == .opened) = true ∧
    does (.partOpenReady 3 15) (job 40001) (fun t => t == job 40001) = true ∧
    does (.partFence 3 15) (job 0) (fun t => t == job 0) = true ∧
    does (.partFence 3 15) (hit .opened) (fun t =>
      (t.q3.tab.part 15).state == .fenced && !(t.q3.port 69).holdsXon 127) = true ∧
    does (.partFence 3 15) (hit .reopening) (fun t => (t.q3.tab.part 15).state == .fenced) = true ∧
    does (.fenceDiscard 3 15) (cut 36) (fun t => t.q3.held == []) = true ∧
    does (.fenceDiscard 3 15) (cut 37) (fun t => t == cut 37) = true := by decide +kernel

/-! ### The whole block -/

/-- A packet row on an operand that is no packet of the row stops as ill-formed. -/
theorem wit_EveryCommandHasItsEffect :
    (Instr.mbxReq 0 0 (hdr 0x02 0) ⟨[], 0⟩).wf = false ∧
    (match exec (.mbxReq 0 0 (hdr 0x02 0) ⟨[], 0⟩) tray with | .fault f => f == .illFormed "MBX_REQ" | _ => false) = true := by decide +kernel

/-- The tray is safe, and a step from it with a command waiting answers a state. -/
theorem wit_SafeStatesStaySafe :
    tray.safe = true ∧
    (match step { tray with pending := [.evtAck (req 4) 0] } with | .next t => t.safe && t.pending == [] | _ => false) = true := by
  decide +kernel

/-- A fuse bit is set, stays set through the loss of the always-on block, and an accepted `fuse.read` is answered. -/
theorem wit_FuseBitsOnlyRise :
    tray.fuse.bits.getLsbD 448 = true ∧ does .alwaysOnLoss tray (fun t => t.fuse.bits.getLsbD 448) = true ∧
    served tray (.fuseRead (req 0)) = true := by decide +kernel

/-- A waiting claim names a later epoch and takes it; the loss of the always-on block sets the epoch to 0. -/
theorem wit_TheTokenEpochOnlyRises :
    let claim : Claim := { f := req 4, key := 0, epoch := 6, tick := 99 }
    let s : State := { tray with tok := { tray.tok with holder := none, claims := [claim] } }
    does .tokenClaimDecide s (fun t => t.tok.epoch == 6) = true ∧ does .alwaysOnLoss tray (fun t => t.tok.epoch == 0) = true := by
  decide +kernel

end Sys2Proof.Tests
end

section
/-! The state at reset (spec/00 R10; O58). -/

namespace Sys2Proof.Machine

@[simp] theorem State.die_reset (d : DieId) : State.reset.die d = {} := by
  match d with | 0 => rfl | 1 => rfl | 2 => rfl | 3 => rfl

theorem State.safe_reset : State.reset.safe = true := by decide

/-- The endpoint in force for a rank comes from a written entry or from a valid route entry (R563): tables that hold neither give none. -/
theorem Tables.aliasOf_eq_none {t : Tables} (hranks : t.ranks = []) (h0 : t.route0 = []) (h1 : t.route1 = []) (p r : Nat) (now : Tick) :
    t.aliasOf p r now = none := by
  have hroute (v : Bool) : t.route v r = 0 := by cases v <;> simp [Tables.route, h0, h1, Map.lookD, Map.look]
  simp [Tables.aliasOf, hranks, hroute, Map.lookD, Map.look, rtKind]

/-- Settles O58: a die at reset is the default die, whose two sets of tables are empty, so every lookup answers its default.
The moment of reset is the model's choice (log entry 2). -/
theorem resetIsSafeAndHoldsTheSpecsValues : Obligations.ResetIsSafeAndHoldsTheSpecsValues := by
  unfold Obligations.ResetIsSafeAndHoldsTheSpecsValues
  refine ⟨State.safe_reset, rfl, rfl, rfl, rfl, rfl, rfl, rfl, fun d => ?_⟩
  rw [State.die_reset]
  refine ⟨rfl, rfl, fun _ => rfl, fun t ht => ?_⟩
  obtain rfl : t = {} := ht.elim id id
  refine ⟨fun p => ?_, fun _ => rfl, fun _ => ⟨rfl, rfl, rfl⟩, rfl⟩
  exact ⟨rfl, rfl, rfl, rfl, rfl, rfl, rfl, rfl, rfl, rfl, rfl, Tables.aliasOf_eq_none rfl rfl rfl p, fun _ => ⟨rfl, rfl⟩⟩

end Sys2Proof.Machine
end

section
/-! SUPPORT. What the operations shared by the link commands do to a die: a port written twice, a free value drawn, a sound control word,
and an event raised. -/

namespace Sys2Proof.Machine

/-! ### Ports of a die -/

theorem Map.put_put {α : Type} (m : Map α) (k : Nat) (a b : α) : Map.put (Map.put m k a) k b = Map.put m k b := by
  induction m with
  | nil => simp [Map.put]
  | cons e r ih =>
    obtain ⟨j, c⟩ := e
    rcases Nat.lt_trichotomy k j with h | rfl | h
    · simp [Map.put, h]
    · simp [Map.put]
    · simp [Map.put, Nat.not_lt_of_gt h, Nat.ne_of_gt h, ih]

@[simp] theorem Die.modPort_modPort (x : Die) (p : Nat) (f g : Port → Port) :
    (x.modPort p f).modPort p g = x.modPort p fun q => g (f q) := by
  rw [Die.modPort, Die.port_modPort]
  simp only [Die.modPort, Map.put_put]

variable {s : State}

/-! ### The next free value -/

/-- The state with `n` as the index of its next free value. -/
def State.withFree (s : State) (n : Nat) : State := { s with free := n }

@[simp] theorem State.withFree_die (n : Nat) (d : DieId) : (s.withFree n).die d = s.die d := by
  match d with | 0 => rfl | 1 => rfl | 2 => rfl | 3 => rfl

@[simp] theorem State.withFree_setDie (n : Nat) (d : DieId) (x : Die) : (s.withFree n).setDie d x = (s.setDie d x).withFree n := by
  match d with | 0 => rfl | 1 => rfl | 2 => rfl | 3 => rfl

/-- Measuring the margins of a port draws the next free value (log entry 5). -/
theorem State.measure_eq (d : DieId) (p : Nat) : s.measure d p =
    (s.modDie d fun x => x.modPort p fun q => { q with marginNear := Config.margin s.free }).withFree (s.free + 1) := rfl

/-! ### Control words -/

/-- A sound control word on a linked port of a powered die has its kind's effect (R132). -/
theorem State.onWord_sound {d : DieId} {p : PortId} {w : CtlWord} {type : Nat} {act : State → State} (hon : (s.die d).on = true)
    (hl : ((s.die d).port p.val).linked = true) (hm : mcrcOk w = true) (ht : cwType w = type) :
    s.onWord d p w type act = act s.fresh := by
  simp [State.onWord, hon, hl, hm, ht]

theorem Port.linked_of_train {q : Port} (h : q.state = .train) : q.linked = true := by simp [Port.linked, h]

theorem Port.linked_of_marks {q : Port} (h : q.marks = true) : q.linked = true := by simp [Port.linked, h]

theorem Port.marks_of_train {q : Port} (h : q.state = .train) : q.marks = false := by simp [Port.marks, h]

theorem Port.ne_train_of_marks {q : Port} (h : q.marks = true) : q.state ≠ .train := by
  intro e
  simp [Port.marks_of_train e] at h

theorem Port.marks_of_switching {q : Port} (h : q.state = .switching) : q.marks = false := by simp [Port.marks, h]

/-! ### Events -/

/-- Equal bare states have equal calm states: what an event writes beside them is cleared in both. -/
theorem State.calm_of_bare {t : State} (h : t.bare = s.bare) : t.calm = s.calm :=
  (congrArg State.calm h : t.bare.calm = s.bare.calm)

@[simp] theorem State.post_calm (c : Nat) (ev : Event) : (s.post c ev).calm = s.calm := by
  unfold State.post
  dsimp only
  split <;> rfl

@[simp] theorem State.tellSubs_calm (ev : Event) : (s.tellSubs ev).calm = s.calm := by
  refine State.calm_of_bare (List.foldlRecOn (motive := fun t : State => t.bare = s.bare) _ _ rfl fun t h u _ => ?_)
  simpa using h

/-- Raising an event writes the event queues, the trace, counters and what leaves the tray, and nothing else. -/
@[simp] theorem State.raise_calm (ev : Event) : (s.raise ev).calm = s.calm := by
  have htrace (t : State) (c k : Nat) (b : List Byte) : (t.traceWrite c k b).calm = t.calm :=
    State.calm_of_bare (State.traceWrite_bare t c k b)
  simp [State.raise, htrace]

/-- Equal calm states have equal dies. -/
theorem State.die_of_calm {t : State} (h : t.calm = s.calm) (d : DieId) : t.die d = s.die d := by
  match d with
  | 0 => exact (congrArg State.q0 h : t.calm.q0 = s.calm.q0)
  | 1 => exact (congrArg State.q1 h : t.calm.q1 = s.calm.q1)
  | 2 => exact (congrArg State.q2 h : t.calm.q2 = s.calm.q2)
  | 3 => exact (congrArg State.q3 h : t.calm.q3 = s.calm.q3)

theorem State.tok_of_calm {t : State} (h : t.calm = s.calm) : t.tok = s.tok := (congrArg State.tok h : t.calm.tok = s.calm.tok)
theorem State.fuse_of_calm {t : State} (h : t.calm = s.calm) : t.fuse = s.fuse := (congrArg State.fuse h : t.calm.fuse = s.calm.fuse)

section Raise
variable (op : Nat) (d e : DieId) (port part vc cause : Byte) (detail : List Byte) (p : Nat)

@[simp] theorem State.raiseDie_calm : (s.raiseDie op d port part vc cause detail).calm = s.calm := by simp [State.raiseDie]

@[simp] theorem State.raisePort_calm : (s.raisePort op d p cause detail).calm = s.calm := by simp [State.raisePort]

@[simp] theorem State.raisePort_die : (s.raisePort op d p cause detail).die e = s.die e :=
  State.die_of_calm (State.raisePort_calm ..) e

end Raise

/-- The TRAIN_ID word of a port is read off the identity, the fuses and the die. -/
theorem State.trainIdOf_of_calm {t : State} (h : t.calm = s.calm) (d : DieId) (p : Nat) : t.trainIdOf d p = s.trainIdOf d p :=
  (congrArg (fun u : State => u.trainIdOf d p) h : t.calm.trainIdOf d p = s.calm.trainIdOf d p)

end Sys2Proof.Machine
end

section
/-! SUPPORT. What each command of a link's training does on a powered die, one rule for each case of chapter 04. -/

namespace Sys2Proof.Machine
variable {s : State} {d : DieId} {p : PortId}

/-- The state with nothing sent yet and one port of a die changed, as the statements about links write it. -/
abbrev State.setPort (s : State) (d : DieId) (p : PortId) (g : Port → Port) : State :=
  s.fresh.setDie d ((s.die d).modPort p.val g)

/-! ### Commands that find nothing to do -/

theorem exec_delayProbePeriodic_early (time : BitVec 48) (hdue : (s.die d).probeDue p.val = false) :
    exec (.delayProbePeriodic d p time) s = .next s.fresh := by
  show execDelayProbePeriodic d p time s = _
  simp [execDelayProbePeriodic, hdue]

theorem exec_farSignalDetect_dark (hlit : s.lit d p.val = false) : exec (.farSignalDetect d p) s = .next s.fresh := by
  show execFarSignalDetect d p s = _
  have hlit' : s.fresh.lit d p.val = false := hlit
  simp [execFarSignalDetect, hlit']

section Powered
variable (hon : (s.die d).on = true)
include hon

/-! ### Delay probes -/

theorem exec_delayProbePeriodic_due (time : BitVec 48) (hdue : (s.die d).probeDue p.val = true) :
    exec (.delayProbePeriodic d p time) s =
      .next (((s.setPort d p fun q => { q with marginNear := Config.margin s.free, probed := some (s.die d).now }).withFree
        (s.free + 1)).emit (.word d p.val (probeWord false time 0 (Config.margin s.free)))) := by
  show execDelayProbePeriodic d p time s = _
  simp [execDelayProbePeriodic, State.measure_eq, State.modDie, hon, hdue]

theorem exec_delayProbe {w : CtlWord} (turn : BitVec 32) (hl : ((s.die d).port p.val).linked = true) (hm : mcrcOk w = true)
    (ht : cwType w = 0xAB) :
    exec (.delayProbe d p w turn) s =
      .next ((((s.setPort d p fun q => { q with marginNear := Config.margin s.free, marginFar := fld w 96 16 }).withFree
        (s.free + 1)).rewiden d p.val).emit (.word d p.val (probeWord true (fld w 16 48) turn (Config.margin s.free)))) := by
  show execDelayProbe d p w turn s = _
  rw [execDelayProbe, State.onWord_sound hon hl hm ht]
  simp [State.measure_eq, State.modDie]

theorem exec_delayProbeReply {w : CtlWord} (a : BitVec 48) (hl : ((s.die d).port p.val).linked = true) (hm : mcrcOk w = true)
    (ht : cwType w = 0xAB) :
    exec (.delayProbeReply d p w a) s =
      .next ((s.setPort d p fun q => { q with delay := BitVec.ofNat 16 (min (probeDelay w a) 65535), marginFar := fld w 96 16,
                                              measured := true }).rewiden d p.val) := by
  show execDelayProbeReply d p w a s = _
  rw [execDelayProbeReply, State.onWord_sound hon hl hm ht]
  simp [State.modDie]

/-! ### Training begins -/

theorem exec_farSignalDetect_lit (hg : (s.die d).laneGroups.getLsbD (p.val / 4) = true) (hp : p.val < 70)
    (hq : ((s.die d).port p.val).state = .detect) (hlit : s.lit d p.val = true) :
    let t := s.setPort d p fun q =>
      { q with state := .train, locked := 0, farLocked := 0, badId := 0, laneMap := s.storedMap d p.val, measured := false,
               probed := none }
    exec (.farSignalDetect d p) s = .next (t.emit (.word d p.val (t.trainIdOf d p.val))) := by
  intro t
  show execFarSignalDetect d p s = _
  have hlit' : s.fresh.lit d p.val = true := hlit
  have hmap : s.fresh.storedMap d p.val = s.storedMap d p.val := rfl
  simp [execFarSignalDetect, hon, hg, hp, hq, hlit', hmap, State.modDie, t]

/-! ### The identity exchange -/

section TrainId
variable {w : CtlWord} (hm : mcrcOk w = true) (ht : cwType w = 0xA8)
include hm ht

/-- The port in TRAIN with the far end's identity and the cause of its check (R24, R25, R29). -/
abbrev State.identified (s : State) (d : DieId) (p : PortId) (w : CtlWord) : State :=
  s.setPort d p fun q => { q with farSerial := fld w 38 48, farId := s.farIdOf d p.val w, farEp := bit w 8, farLocked := fld w 86 4,
                                  badId := s.cablingCause d p.val w }

theorem exec_trainId_noted (hq : ((s.die d).port p.val).state = .train)
    (hc : s.cablingCause d p.val w = 0#3 ∨ s.cablingCause d p.val w = ((s.die d).port p.val).badId) :
    exec (.trainId d p w) s =
      .next ((s.identified d p w).emit (.word d p.val ((s.identified d p w).trainIdOf d p.val))) := by
  show execTrainId d p w s = _
  rw [execTrainId, State.onWord_sound hon (Port.linked_of_train hq) hm ht]
  have hbad : s.fresh.cablingCause d p.val w = s.cablingCause d p.val w := rfl
  have hfar : s.fresh.farIdOf d p.val w = s.farIdOf d p.val w := rfl
  simp [State.modDie, hq, hbad, hfar, hc, State.identified]

theorem exec_trainId_mismatch (hq : ((s.die d).port p.val).state = .train) (hc : s.cablingCause d p.val w ≠ 0#3)
    (hnew : s.cablingCause d p.val w ≠ ((s.die d).port p.val).badId) :
    exec (.trainId d p w) s =
      .next (((s.identified d p w).raisePort 0x0385 d p.val ((s.cablingCause d p.val w).setWidth 8)
        (le 6 (fld w 38 48).toNat ++ le 2 (s.farIdOf d p.val w).toNat)).emit
          (.word d p.val ((s.identified d p w).trainIdOf d p.val))) := by
  show execTrainId d p w s = _
  rw [execTrainId, State.onWord_sound hon (Port.linked_of_train hq) hm ht]
  have hbad : s.fresh.cablingCause d p.val w = s.cablingCause d p.val w := rfl
  have hfar : s.fresh.farIdOf d p.val w = s.farIdOf d p.val w := rfl
  simp [State.modDie, hq, hbad, hfar, hc, hnew, State.identified, State.trainIdOf_of_calm (State.raisePort_calm ..)]

theorem exec_trainId_locked (hq : ((s.die d).port p.val).marks = true) (hb : bit w 90 = true) :
    exec (.trainId d p w) s = .next ((s.setPort d p fun q => { q with farLocked := fld w 86 4 }).rewiden d p.val) := by
  show execTrainId d p w s = _
  rw [execTrainId, State.onWord_sound hon (Port.linked_of_marks hq) hm ht]
  have hb' : w[90] = true := hb
  simp [State.modDie, Port.ne_train_of_marks hq, hb']

theorem exec_trainId_late (hq : ((s.die d).port p.val).marks = true) (hb : bit w 90 = false) :
    exec (.trainId d p w) s = .next s.fresh := by
  show execTrainId d p w s = _
  rw [execTrainId, State.onWord_sound hon (Port.linked_of_marks hq) hm ht]
  have hb' : w[90] = false := hb
  simp [Port.ne_train_of_marks hq, hb']

end TrainId

/-! ### Lanes that lock -/

theorem exec_laneLock_train (lane : Fin 4) (hq : ((s.die d).port p.val).state = .train) :
    let t := s.setPort d p fun q => { q with locked := setBit q.locked lane.val true }
    exec (.laneLock d p lane) s = .next (t.emit (.word d p.val (t.trainIdOf d p.val))) := by
  intro t
  show execLaneLock d p lane s = _
  simp [execLaneLock, State.modDie, hon, hq, t]

section LaneLock
variable (lane : Fin 4) (hb : bit ((s.die d).port p.val).lanes lane.val = false)
  (ht : ((s.die d).port p.val).training = true ∨ ((s.die d).port p.val).widen = true)
include hb ht

/-- The port with a lane locked after TRAIN: a lane that a widening trains again is declared lost no longer (R149). -/
abbrev State.laneLocked (s : State) (d : DieId) (p : PortId) (lane : Fin 4) : State :=
  s.setPort d p fun q => { q with locked := setBit q.locked lane.val true,
                                  lost := if q.widen then setBit q.lost lane.val false else q.lost }

theorem exec_laneLock_marks (hq : ((s.die d).port p.val).marks = true) (hs : ((s.die d).port p.val).state ≠ .sweep) :
    exec (.laneLock d p lane) s = .next (((s.laneLocked d p lane).emit
      (.word d p.val ((s.laneLocked d p lane).trainIdOf d p.val))).rewiden d p.val) := by
  show execLaneLock d p lane s = _
  have hb' : ((s.die d).port p.val).lanes[lane.val] = false := hb
  rcases ht with ht | ht <;> simp [execLaneLock, State.modDie, hon, hq, hs, hb', ht, Port.ne_train_of_marks hq]

theorem exec_laneLock_switching (hq : ((s.die d).port p.val).state = .switching) :
    exec (.laneLock d p lane) s = .next (s.laneLocked d p lane) := by
  show execLaneLock d p lane s = _
  have hb' : ((s.die d).port p.val).lanes[lane.val] = false := hb
  rcases ht with ht | ht <;> simp [execLaneLock, State.modDie, hon, hq, hb', ht, Port.marks_of_switching hq]

end LaneLock

/-! ### Width requests -/

section WidthReq
variable {w : CtlWord} (hm : mcrcOk w = true) (ht : cwType w = 0xA9)
include hm ht

theorem exec_widthReq_slow (hl : ((s.die d).port p.val).linked = true) (h1 : (bit w 12 && popCount (fld w 8 4) != 1) = true) :
    exec (.widthReq d p w) s = .next (s.fresh.setDie d ((s.die d).count (cPort 2 0 p.val))) := by
  show execWidthReq d p w s = _
  rw [execWidthReq, State.onWord_sound hon hl hm ht]
  have h1' : w[12] = true ∧ ¬popCount (fld w 8 4) = 1 := by simpa using h1
  simp [State.modDie, h1']

theorem exec_widthReq_train (hq : ((s.die d).port p.val).state = .train) (h1 : (bit w 12 && popCount (fld w 8 4) != 1) = false) :
    exec (.widthReq d p w) s = .next s.fresh := by
  show execWidthReq d p w s = _
  rw [execWidthReq, State.onWord_sound hon (Port.linked_of_train hq) hm ht]
  have h1' : ¬(w[12] = true ∧ ¬popCount (fld w 8 4) = 1) := by simpa using h1
  simp [Port.marks_of_train hq, h1']

/-- The port with the lanes that a WIDTH_REQ reports lost (R147). -/
abbrev Port.losing (q : Port) (w : CtlWord) : Port := { q with lost := q.lost ||| fld w 16 4 }

section Agreed
variable (hq : ((s.die d).port p.val).marks = true) (h1 : (bit w 12 && popCount (fld w 8 4) != 1) = false)
  {c : Switch} (hc : (((s.die d).port p.val).losing w).agree (s.die d).now w = c)
include hq h1 hc

theorem exec_widthReq_fails (hbad : c.lanes = 0#4 ∨ (64 ≤ p.val ∧ ((s.die d).port p.val).carries = true ∧ c.lanes ≠ 15#4)) :
    exec (.widthReq d p w) s = .next ((s.setPort d p fun q => q.losing w).failLink d p.val 2) := by
  show execWidthReq d p w s = _
  rw [execWidthReq, State.onWord_sound hon (Port.linked_of_marks hq) hm ht]
  have h1' : ¬(w[12] = true ∧ ¬popCount (fld w 8 4) = 1) := by simpa using h1
  rcases hbad with h0 | ⟨hp, hcar, h15⟩
  · simp [State.modDie, h1', hq, hc, h0]
  · simp [State.modDie, h1', hq, hc, hp, hcar, h15]

theorem exec_widthReq_switch (hgood : ¬(c.lanes = 0#4 ∨ (64 ≤ p.val ∧ ((s.die d).port p.val).carries = true ∧ c.lanes ≠ 15#4))) :
    exec (.widthReq d p w) s = .next (s.setPort d p fun q => { q.losing w with sw := some c }) := by
  show execWidthReq d p w s = _
  rw [execWidthReq, State.onWord_sound hon (Port.linked_of_marks hq) hm ht]
  have h1' : ¬(w[12] = true ∧ ¬popCount (fld w 8 4) = 1) := by simpa using h1
  have h0 : c.lanes ≠ 0#4 := fun h => hgood (.inl h)
  have h15 (hp : 64 ≤ p.val) (hcar : ((s.die d).port p.val).carries = true) : c.lanes = 15#4 :=
    Decidable.byContradiction fun h => hgood (.inr ⟨hp, hcar, h⟩)
  simp +contextual [State.modDie, h1', hq, hc, h0, h15]

end Agreed

end WidthReq

end Powered

end Sys2Proof.Machine
end

section
/-! SUPPORT. The end of a training and of its ACTIVE bound. -/

namespace Sys2Proof.Machine
variable {s : State} {d : DieId} {p : PortId}

/-! ### What a link's return to service leaves alone -/

/-- What reports about a link, its circuits and the reach of the tray do not touch on die `d`: its ports and its counters, and the
FC4's fuses and token. -/
structure LinkPart where
  ports : Map Port
  ctr : Map (BitVec 64)
  fuse : Fuses
  tok : Token

/-- The link part of a state at die `d`. -/
def State.linkPart (s : State) (d : DieId) : LinkPart := ⟨(s.die d).ports, (s.die d).ctr, s.fuse, s.tok⟩

theorem State.linkPart_eq_iff {t : State} : t.linkPart d = s.linkPart d ↔
    (t.die d).ports = (s.die d).ports ∧ (t.die d).ctr = (s.die d).ctr ∧ t.fuse = s.fuse ∧ t.tok = s.tok := by
  simp [State.linkPart]

theorem State.port_of_linkPart {t : State} (h : t.linkPart d = s.linkPart d) (p : Nat) : (t.die d).port p = (s.die d).port p := by
  rw [Die.port, Die.port, (State.linkPart_eq_iff.1 h).1]

theorem State.linkPart_of_calm {t : State} (h : t.calm = s.calm) (d : DieId) : t.linkPart d = s.linkPart d :=
  State.linkPart_eq_iff.2 ⟨by rw [State.die_of_calm h], by rw [State.die_of_calm h], State.fuse_of_calm h, State.tok_of_calm h⟩

theorem State.linkPart_modDie {f : Die → Die} (hp : (f (s.die d)).ports = (s.die d).ports) (hc : (f (s.die d)).ctr = (s.die d).ctr) :
    (s.modDie d f).linkPart d = s.linkPart d := by
  simp [State.linkPart, hp, hc]

theorem State.linkPart_onDies (f : Die → Die) (hp : ∀ x, (f x).ports = x.ports) (hc : ∀ x, (f x).ctr = x.ctr) :
    (s.onDies f).linkPart d = s.linkPart d := by
  have hdie : (s.onDies f).die d = if (s.die d).on then f (s.die d) else s.die d := by
    match d with | 0 => rfl | 1 => rfl | 2 => rfl | 3 => rfl
  refine State.linkPart_eq_iff.2 ⟨?_, ?_, rfl, rfl⟩ <;> rw [hdie] <;> split <;> simp [hp, hc]

@[simp] theorem State.noteColl_linkPart (q l : Nat) (restored : Bool) (decl : Tick) :
    (s.noteColl q l restored decl).linkPart d = s.linkPart d := by
  unfold State.noteColl
  extract_lets lost notes t
  have ht : t.linkPart d = s.linkPart d := rfl
  have hplan (out : Bool) : (t.onDies fun x => x.planColl decl q out).linkPart d = s.linkPart d :=
    (State.linkPart_onDies (fun x => x.planColl decl q out) (fun _ => rfl) fun _ => rfl).trans ht
  split
  · exact hplan true
  · split
    · exact ht
    · exact hplan false

@[simp] theorem State.applyReach_linkPart (q l : Nat) (restored : Bool) (decl : Tick) :
    (s.applyReach q l restored decl).linkPart d = s.linkPart d := by
  unfold State.applyReach
  extract_lets k newer t
  split
  · rfl
  · rw [State.noteColl_linkPart]
    exact State.linkPart_onDies _ (fun _ => rfl) fun _ => rfl

@[simp] theorem State.fabricLink_linkPart (e : DieId) (p : Nat) (restored : Bool) :
    (s.fabricLink e p restored).linkPart d = s.linkPart d := by
  unfold State.fabricLink
  dsimp only
  split
  · rw [State.noteColl_linkPart]
    rfl
  · split
    · exact State.applyReach_linkPart ..
    · rfl

@[simp] theorem State.linkReturns_linkPart (e : DieId) (p : Nat) : (s.linkReturns e p).linkPart d = s.linkPart d := by
  unfold State.linkReturns
  extract_lets key
  split <;> simp

@[simp] theorem State.checkShrunk_linkPart (c : Nat) (e : BitVec 64) : (s.checkShrunk d c e).linkPart d = s.linkPart d := by
  unfold State.checkShrunk
  dsimp only
  repeat' split
  · rfl
  · exact State.linkPart_modDie rfl rfl
  · rfl
  · exact (State.linkPart_of_calm (State.raiseDie_calm ..) d).trans (State.linkPart_modDie rfl rfl)

@[simp] theorem State.checkPortCircuits_linkPart (p : Nat) : (s.checkPortCircuits d p).linkPart d = s.linkPart d := by
  refine List.foldlRecOn (motive := fun t : State => t.linkPart d = s.linkPart d) _ _ rfl fun t h e _ => ?_
  rw [State.checkShrunk_linkPart, h]

theorem Port.eq_of_not_retrain {q : Port} (h : ¬q.retrain = true) : { q with retrain := false } = q := by
  rw [← Bool.eq_false_iff.2 h]

/-- Reporting the end of a `link.retrain` clears the port's wait for that report (R443). -/
@[simp] theorem State.reportRetrain_port (p : Nat) (failed : Bool) :
    ((s.reportRetrain d p failed).die d).port p = { (s.die d).port p with retrain := false } := by
  unfold State.reportRetrain
  dsimp only
  split
  · simp
  · next h => exact (Port.eq_of_not_retrain h).symm

/-- Reporting the end of a `link.retrain` leaves the counters, the fuses and the token. -/
theorem State.reportRetrain_kept (p : Nat) (failed : Bool) :
    ((s.reportRetrain d p failed).die d).ctr = (s.die d).ctr ∧ (s.reportRetrain d p failed).fuse = s.fuse ∧
      (s.reportRetrain d p failed).tok = s.tok := by
  unfold State.reportRetrain
  dsimp only
  split
  · obtain ⟨-, hctr, hfuse, htok⟩ := State.linkPart_eq_iff.1 (State.linkPart_of_calm (State.raisePort_calm (s := s.modDie d _) ..) d)
    exact ⟨hctr.trans (by simp), hfuse.trans (by simp), htok.trans (by simp)⟩
  · exact ⟨rfl, rfl, rfl⟩

/-! ### TRAIN_COMPLETE -/

/-- The die with the lane map that training found on a port, a map that differs from the stored one being counted (R142, R160). -/
def Die.trainedPort (x : Die) (p : Nat) (found : BitVec 5) : Die :=
  (if found = (x.port p).laneMap then x else x.count (cPort 2 6 p)).modPort p fun q => q.trained (decide (64 ≤ p)) found

@[simp] theorem Die.trainedPort_port (x : Die) (p : Nat) (found : BitVec 5) :
    (x.trainedPort p found).port p = (x.port p).trained (decide (64 ≤ p)) found := by
  unfold Die.trainedPort
  split <;> simp

@[simp] theorem Die.trainedPort_ctr (x : Die) (p : Nat) (found : BitVec 5) :
    (x.trainedPort p found).ctr = if found = (x.port p).laneMap then x.ctr else (x.count (cPort 2 6 p)).ctr := by
  unfold Die.trainedPort
  split <;> simp

/-- The reports that follow the end of a training: a fabric link's return to service where it passed the identity check, the end of
a `link.retrain` of a bridge port, and the circuits of the port (R189, R206, R443). -/
def State.trainReports (s : State) (d : DieId) (p : PortId) (passed : Bool) : State :=
  let t := if passed then s.linkReturns d p.val else s
  (if 64 ≤ p.val then t.reportRetrain d p.val false else t).checkPortCircuits d p.val

/-- Those reports leave the link part of the die, but for the wait of a bridge port for its report. -/
theorem State.trainReports_kept (passed : Bool) :
    (∃ b, ((s.trainReports d p passed).die d).port p.val = { (s.die d).port p.val with retrain := b }) ∧
      ((s.trainReports d p passed).die d).ctr = (s.die d).ctr ∧ (s.trainReports d p passed).fuse = s.fuse ∧
      (s.trainReports d p passed).tok = s.tok := by
  unfold State.trainReports
  extract_lets u
  have hu : u.linkPart d = s.linkPart d := by unfold u; split <;> simp
  obtain ⟨-, hctr, hfuse, htok⟩ := State.linkPart_eq_iff.1 hu
  have hcirc (w : State) := State.checkPortCircuits_linkPart (s := w) (d := d) p.val
  split
  · obtain ⟨-, hctr', hfuse', htok'⟩ := State.linkPart_eq_iff.1 (hcirc (u.reportRetrain d p.val false))
    obtain ⟨hc, hf, ht⟩ := State.reportRetrain_kept (s := u) (d := d) p.val false
    refine ⟨⟨false, ?_⟩, (hctr'.trans hc).trans hctr, (hfuse'.trans hf).trans hfuse, (htok'.trans ht).trans htok⟩
    rw [State.port_of_linkPart (hcirc _), State.reportRetrain_port, State.port_of_linkPart hu]
  · obtain ⟨-, hctr', hfuse', htok'⟩ := State.linkPart_eq_iff.1 (hcirc u)
    refine ⟨⟨((s.die d).port p.val).retrain, ?_⟩, hctr'.trans hctr, hfuse'.trans hfuse, htok'.trans htok⟩
    rw [State.port_of_linkPart (hcirc u), State.port_of_linkPart hu]

theorem exec_trainComplete (found : BitVec 5) (hon : (s.die d).on = true) (hq : ((s.die d).port p.val).state = .train)
    (hmeas : ((s.die d).port p.val).measured = true) (hlit : s.lit d p.val = true)
    (hboth : let both := ((s.die d).port p.val).locked &&& ((s.die d).port p.val).farLocked
      if decide (64 ≤ p.val) then both = 15#4 else both ≠ 0#4) :
    exec (.trainComplete (d, p) found) s = .next ((s.fresh.setDie d ((s.die d).trainedPort p.val found)).trainReports d p
      (((s.die d).port p.val).badId = 0)) := by
  show execTrainComplete (d, p) found s = _
  have hlit' : s.fresh.lit d p.val = true := hlit
  unfold execTrainComplete State.trainReports Die.trainedPort
  by_cases hp : 64 ≤ p.val
  · have hall : ((s.die d).port p.val).locked &&& ((s.die d).port p.val).farLocked = 15#4 := by simpa [hp] using hboth
    simp [State.modDie, hon, hq, hmeas, hlit', hp, hall]
  · have hsome : ((s.die d).port p.val).locked &&& ((s.die d).port p.val).farLocked ≠ 0#4 := by simpa [hp] using hboth
    simp [State.modDie, hon, hq, hmeas, hlit', hp, hsome]

/-- What a port is after its training has ended, whatever is reported then. -/
theorem State.trainReports_trainedPort (found : BitVec 5) (passed : Bool) :
    let q := (s.die d).port p.val
    let t := (s.fresh.setDie d ((s.die d).trainedPort p.val found)).trainReports d p passed
    (∃ b, (t.die d).port p.val = { q.trained (decide (64 ≤ p.val)) found with retrain := b }) ∧
      (t.die d).ctr = (if found = q.laneMap then (s.die d).ctr else ((s.die d).count (cPort 2 6 p.val)).ctr) ∧ t.fuse = s.fuse ∧
      t.tok = s.tok := by
  intro q t
  simpa [t, q] using State.trainReports_kept (s := s.fresh.setDie d ((s.die d).trainedPort p.val found)) (d := d) (p := p) passed

/-! ### TRAIN_BOUND_EXPIRY -/

/-- The state in which the ACTIVE bound of a port has passed (R664): the port settles at the end of a switch that is under way. -/
abbrev State.boundPassed (s : State) (d : DieId) (p : PortId) : State :=
  s.setPort d p fun r => { r with boundOver := true, settle := ((s.die d).port p.val).sw.isSome }

theorem exec_trainBoundExpiry (hon : (s.die d).on = true) (ht : ((s.die d).port p.val).training = true)
    (hb : ((s.die d).port p.val).boundOver = false)
    (hq : ((s.die d).port p.val).marks = true ∨ ((s.die d).port p.val).state = .switching) :
    exec (.trainBoundExpiry d p) s = .next ((if ((s.die d).port p.val).sw.isSome then s.boundPassed d p
      else (s.boundPassed d p).settleBound d p.val).raiseDegrade d p.val) := by
  show execTrainBoundExpiry d p s = _
  rcases hq with hq | hq <;> simp [execTrainBoundExpiry, State.modDie, hon, ht, hb, hq, State.boundPassed]

@[simp] theorem State.requestSwitch_port (p : Nat) (lanes : BitVec 4) (slow : Bool) (reason : BitVec 3) (byLoss : Bool) :
    ((s.requestSwitch d p lanes slow reason byLoss).die d).port p =
      { (s.die d).port p with sw := some ⟨lanes, slow, reason, switchTickAt (s.die d).now, byLoss, (s.die d).now⟩ } := by
  simp [State.requestSwitch]

section Settle
variable {q : Port} {l : BitVec 4} (p : Nat) (hq : (s.die d).port p = q) (hl : q.chooseLanes (fun i => bit q.both i) = l)
include hq hl

/-- With no lane locked at both ends a port whose bound has passed trains on. -/
theorem State.settleBound_port_unlocked (h0 : l = 0#4) : ((s.settleBound d p).die d).port p = { q with retrain := false } := by
  simp [State.settleBound, hq, hl, h0]

/-- A port whose locked lanes are wider requests the switch to them and declares the others lost. -/
theorem State.settleBound_port_wider (h0 : l ≠ 0#4) (hw : q.width < popCount l ∨ q.fullRate = false) :
    ((s.settleBound d p).die d).port p =
      { q with training := false, lost := q.lost ||| ~~~l,
               sw := some ⟨l, false, 1, switchTickAt (s.die d).now, false, (s.die d).now⟩ } := by
  simp [State.settleBound, hq, hl, h0, hw]

/-- A port that its locked lanes do not widen stays as it is and declares its other lanes lost. -/
theorem State.settleBound_port_kept (h0 : l ≠ 0#4) (hw : ¬(q.width < popCount l ∨ q.fullRate = false)) :
    ((s.settleBound d p).die d).port p = { q with training := false, retrain := false, lost := q.lost ||| ~~~q.lanes } := by
  simp [State.settleBound, hq, hl, h0, hw]

end Settle

end Sys2Proof.Machine
end

section
/-! Delay probes, the identity exchange and training (O45). -/

namespace Sys2Proof.Machine

/-- Settles O45: each clause is the rule of its command; the port at the end of a training and of its ACTIVE bound is read off
`Port.trained` and the three ways in which `State.settleBound` ends. First mismatches, crossed switches, the settled bound
and bridge ports at x4 only are the model's readings (log entries 79, 80, 81, 137). -/
theorem probesAndTrainingComplete : Obligations.ProbesAndTrainingComplete := by
  unfold Obligations.ProbesAndTrainingComplete
  intro s d p hon x q set m drew
  refine ⟨fun time => ⟨fun h => exec_delayProbePeriodic_due hon time h, fun h => exec_delayProbePeriodic_early time h⟩,
    fun w hl hm ht => ⟨fun turn => exec_delayProbe hon turn hl hm ht, fun a => exec_delayProbeReply hon a hl hm ht⟩,
    fun hg hp hq => ⟨fun hlit => exec_farSignalDetect_lit hon hg hp hq hlit, fun hlit => exec_farSignalDetect_dark hlit⟩,
    fun w hm ht => ⟨fun hq => ⟨fun hc => exec_trainId_noted hon hm ht hq hc,
        fun hc hnew => exec_trainId_mismatch hon hm ht hq hc hnew⟩,
      fun hq => ⟨fun hb => exec_trainId_locked hon hm ht hq hb, fun hb => exec_trainId_late hon hm ht hq hb⟩⟩,
    ?complete,
    fun lane => ⟨fun hq => exec_laneLock_train hon lane hq, fun _ hs hb ht => ⟨fun hq => exec_laneLock_marks hon lane hb ht hq hs,
      fun hq => exec_laneLock_switching hon lane hb ht hq⟩⟩,
    ?request, ?bound⟩
  case complete =>
    intro found both bridge hq hmeas hlit hboth
    obtain ⟨⟨b, hport⟩, hkept⟩ := State.trainReports_trainedPort (s := s) (d := d) (p := p) found (decide (q.badId = 0))
    refine ⟨_, exec_trainComplete found hon hq hmeas hlit hboth, ?_⟩
    intro r
    have hr : r = { q.trained bridge found with retrain := b } := hport
    rw [hr]
    exact ⟨rfl, rfl, rfl, rfl, rfl, rfl, rfl, rfl, rfl, rfl, hkept⟩
  case request =>
    intro w hl hm ht one r c bad
    refine ⟨fun h1 => exec_widthReq_slow hon hm ht hl h1, fun h1 hq => exec_widthReq_train hon hm ht hq h1,
      fun h1 hq hbad => exec_widthReq_fails hon hm ht hq h1 rfl hbad,
      fun h1 hq hgood => exec_widthReq_switch hon hm ht hq h1 rfl hgood, fun hsw => ?_⟩
    simp [c, Port.agree, r, hsw]
  case bound =>
    intro ht hb hq t l wider
    have hexec := exec_trainBoundExpiry hon ht hb hq
    refine ⟨fun hsw => hexec.trans (by rw [if_pos hsw]), fun hsw =>
      ⟨(s.boundPassed d p).settleBound d p.val, hexec.trans (by simp [q, x, hsw]), ?_⟩⟩
    have hport : ((s.boundPassed d p).die d).port p.val = { q with boundOver := true, settle := q.sw.isSome } := by simp [q, x]
    intro r
    by_cases h0 : l = 0
    · have hr : r = _ := State.settleBound_port_unlocked p.val hport rfl h0
      rw [hr]
      exact ⟨rfl, rfl, rfl, fun _ => ⟨ht, rfl, hsw⟩, fun h => absurd h0 h⟩
    · by_cases hw : wider
      · have hr : r = _ := State.settleBound_port_wider p.val hport rfl h0 hw
        rw [hr, if_pos hw]
        exact ⟨rfl, rfl, rfl, fun h => absurd h h0, fun _ => ⟨rfl, rfl, fun _ => ⟨_, rfl, rfl, rfl⟩, fun h => absurd hw h⟩⟩
      · have hr : r = _ := State.settleBound_port_kept p.val hport rfl h0 hw
        rw [hr, if_neg hw]
        exact ⟨rfl, rfl, rfl, fun h => absurd h h0, fun _ => ⟨rfl, rfl, fun h => absurd h hw, fun _ => hsw⟩⟩

end Sys2Proof.Machine
end

section
/-! SUPPORT. What the failure of a link does to the ports of its die, and what it leaves alone. -/

namespace Sys2Proof.Machine

/-! ### Discards -/

/-- What a discard leaves alone on a die, but for the packets that it removes: the tick, the ports, the written tables and the held packets. -/
structure Stock where
  now : Tick
  ports : Map Port
  tab : Tables
  held : List Held

/-- The stock of a die. -/
def Die.stock (x : Die) : Stock := ⟨x.now, x.ports, x.tab, x.held⟩

section Stock
variable {x : Die}

theorem Die.stock_foldl {α : Type} {f : Die → α → Die} (hf : ∀ y a, (f y a).stock = y.stock) (l : List α) : (l.foldl f x).stock = x.stock :=
  List.foldlRecOn (motive := fun y : Die => y.stock = x.stock) _ _ rfl fun y h a _ => (hf y a).trans h

@[simp] theorem Die.touch_stock (part : Nat) : (x.touch part).stock = x.stock := by
  unfold Die.touch
  split <;> rfl

@[simp] theorem Die.discard_stock (h : Hdr) (key : Nat) (touch : Bool) : (x.discard h key touch).stock = x.stock := by
  unfold Die.discard
  dsimp only
  split
  · exact Die.touch_stock _
  · rfl

@[simp] theorem Die.freePot_stock (n : Option Nat) : (x.freePot n).stock = x.stock := by cases n <;> rfl

@[simp] theorem Die.placeDone_stock (k : PourKey) (pl : Place) : (x.placeDone k pl).stock = x.stock := by
  unfold Die.placeDone
  extract_lets here y
  have hy : y.stock = x.stock := Die.stock_foldl (fun z (q : Pour) => Die.freePot_stock (x := z) q.pot) _
  split
  · rfl
  · cases pl <;> exact hy

/-- Discarding held packets removes those that pass the test, and leaves the tick, the ports and the tables. -/
theorem Die.discardHeld_stock (p : Held → Bool) (key : Held → Nat) (touch : Bool) :
    (x.discardHeld p key touch).stock = ⟨x.now, x.ports, x.tab, x.held.filter fun h => !p h⟩ := by
  unfold Die.discardHeld
  extract_lets gone y z
  have hy : y.stock = x.stock := Die.stock_foldl (fun w h => Die.discard_stock (x := w) h.hdr (key h) touch) _
  split
  case isTrue hgone =>
    have hnone : ∀ h ∈ x.held, ¬p h = true := List.filter_eq_nil_iff.1 (List.isEmpty_iff.1 hgone)
    have hall : x.held.filter (fun h => !p h) = x.held := List.filter_eq_self.2 fun h hh => by simp [hnone h hh]
    rw [hall]
    rfl
  case isFalse =>
    refine (Die.stock_foldl (fun w (e : PourKey × Place) => Die.placeDone_stock (x := w) e.1 e.2) _).trans ?_
    obtain ⟨hnow, hports, htab, hheld⟩ : y.now = x.now ∧ y.ports = x.ports ∧ y.tab = x.tab ∧ y.held = x.held := by
      simpa [Die.stock] using hy
    simp [z, Die.stock, Die.freeContexts, hnow, hports, htab, hheld]

theorem Die.ports_of_stock {y : Die} (h : y.stock = x.stock) : y.ports = x.ports := congrArg Stock.ports h

/-- Discarding what a failed port had sent or had queued leaves the tick and every port (R152). -/
theorem Die.failPackets_kept (p : Nat) : (x.failPackets p).now = x.now ∧ (x.failPackets p).ports = x.ports := by
  unfold Die.failPackets
  extract_lets q y z
  have hy : y.stock = x.stock := Die.stock_foldl (fun (w : Die) (t : TxPkt) => Die.discard_stock (x := w) _ _ _) _
  have hz : z.stock = y.stock := by
    unfold z
    split
    · rfl
    · exact Die.touch_stock _
  have hall := Die.discardHeld_stock (x := z) (fun h => h.outPort == p && (h.bin == .queue || h.bin == .circuit))
    (fun h => cPart 6 2 h.hdr.part.toNat) true
  exact ⟨(congrArg Stock.now hall).trans (congrArg Stock.now (hz.trans hy)),
    (congrArg Stock.ports hall).trans (congrArg Stock.ports (hz.trans hy))⟩

/-! ### Packets of pours -/

theorem Die.ports_foldl {α : Type} {f : Die → α → Die} (hf : ∀ y a, (f y a).ports = y.ports) (l : List α) : (l.foldl f x).ports = x.ports :=
  List.foldlRecOn (motive := fun y : Die => y.ports = x.ports) _ _ rfl fun y h a _ => (hf y a).trans h

@[simp] theorem Die.enqueue_ports (h : Held) : (x.enqueue h).ports = x.ports := by
  unfold Die.enqueue
  dsimp only
  split <;> rfl

@[simp] theorem Die.sendOwn_ports (port : Nat) (h : Hdr) (data : List Byte) (place : Option (PourKey × Place)) :
    (x.sendOwn port h data place).ports = x.ports := Die.enqueue_ports _

@[simp] theorem Die.sendStream_ports (port : Nat) (k : PourKey) (part : BitVec 4) (vc : Nat) (far : Option Nat) (head : BlendHead)
    (at_ : Nat) (data : List Byte) (mark : Bool) (place : Option (PourKey × Place)) :
    (x.sendStream port k part vc far head at_ data mark place).ports = x.ports :=
  Die.ports_foldl (fun _ _ => Die.sendOwn_ports ..) _

@[simp] theorem Die.noteRelay_ports (k : PourKey) (vc far port : Nat) : (x.noteRelay k vc far port).ports = x.ports := by
  unfold Die.noteRelay
  split <;> rfl

@[simp] theorem Die.dropPour_ports (k : PourKey) (status : BitVec 4) (mark : Bool) : (x.dropPour k status mark).ports = x.ports := by
  unfold Die.dropPour
  extract_lets c keep gone told r y z
  have hy : y.ports = x.ports := Die.ports_of_stock (Die.stock_foldl (fun w (q : Pour) => Die.freePot_stock (x := w) q.pot) _)
  have hz : z.ports = y.ports := Die.ports_foldl (fun w q => by split <;> rfl) _
  exact hz.trans hy

end Stock

/-! ### Events, aborts and reports -/

/-- The ports of a die and the parts of the tray beside the dies that link failures, caddies and powers read: the fuses, the token, the power and the
caddy bays. -/
structure Wiring where
  ports : Map Port
  fuse : Fuses
  tok : Token
  pow : Power
  bays : Map Bay

/-- The wiring of a state at die `d`. -/
def State.wiring (s : State) (d : DieId) : Wiring := ⟨(s.die d).ports, s.fuse, s.tok, s.pow, s.bays⟩

/-- The wiring with one port changed. -/
def Wiring.setPort (w : Wiring) (p : Nat) (f : Port → Port) : Wiring := { w with ports := Map.put w.ports p (f (Map.lookD w.ports p {})) }

@[simp] theorem Wiring.setPort_setPort (w : Wiring) (p : Nat) (f g : Port → Port) :
    (w.setPort p f).setPort p g = w.setPort p fun q => g (f q) := by
  simp [Wiring.setPort, Map.put_put]

section Wiring
variable {s t : State} {d : DieId}

theorem State.wiring_eq_iff : t.wiring d = s.wiring d ↔
    (t.die d).ports = (s.die d).ports ∧ t.fuse = s.fuse ∧ t.tok = s.tok ∧ t.pow = s.pow ∧ t.bays = s.bays := by
  simp [State.wiring]

theorem State.wiring_foldl {α : Type} {f : State → α → State} (hf : ∀ t a, (f t a).wiring d = t.wiring d) (l : List α) :
    (l.foldl f s).wiring d = s.wiring d :=
  List.foldlRecOn (motive := fun t : State => t.wiring d = s.wiring d) _ _ rfl fun t h a _ => (hf t a).trans h

theorem State.wiring_of_calm (h : t.calm = s.calm) : t.wiring d = s.wiring d :=
  State.wiring_eq_iff.2 ⟨by rw [State.die_of_calm h], State.fuse_of_calm h, State.tok_of_calm h,
    (congrArg State.pow h : t.calm.pow = s.calm.pow), (congrArg State.bays h : t.calm.bays = s.calm.bays)⟩

theorem State.wiring_modDie {f : Die → Die} (hf : (f (s.die d)).ports = (s.die d).ports) : (s.modDie d f).wiring d = s.wiring d := by
  simp [State.wiring, hf]

theorem State.wiring_modPort (p : Nat) (f : Port → Port) :
    (s.modDie d fun x => x.modPort p f).wiring d = (s.wiring d).setPort p f := by
  simp [State.wiring, Wiring.setPort, Die.modPort, Die.port]

@[simp] theorem State.raiseDie_wiring (op : Nat) (e : DieId) (port part vc cause : Byte) (detail : List Byte) :
    (s.raiseDie op e port part vc cause detail).wiring d = s.wiring d := State.wiring_of_calm (State.raiseDie_calm ..)

@[simp] theorem State.raisePort_wiring (op : Nat) (e : DieId) (p : Nat) (cause : Byte) (detail : List Byte) :
    (s.raisePort op e p cause detail).wiring d = s.wiring d := State.wiring_of_calm (State.raisePort_calm ..)

@[simp] theorem State.sendMember_wiring (k : PourKey) (part : BitVec 4) (rank : Nat) (ep : BitVec 11) (result : Option (List Byte))
    (word : BitVec 128) (mark : Bool) (place : Option (PourKey × Place)) :
    (s.sendMember d k part rank ep result word mark place).wiring d = s.wiring d := by
  unfold State.sendMember
  dsimp only
  split
  · refine State.wiring_modDie ?_
    rw [Die.sendOwn_ports]
    split
    · rfl
    · rw [Die.sendOwn_ports]
      exact Die.ports_foldl (fun _ _ => Die.sendOwn_ports ..) _
  · split
    · exact State.wiring_modDie (Die.ports_of_stock (Die.discard_stock ..))
    · exact State.wiring_modDie (by simp)

@[simp] theorem State.abortWords_wiring (k : PourKey) (part status : BitVec 4) (ins : Map Input) (mark : Bool) :
    (s.abortWords d k part status ins mark).wiring d = s.wiring d :=
  State.wiring_foldl (fun t i => by split <;> simp) _

@[simp] theorem State.abortHeads_wiring (k : PourKey) (part status : BitVec 4) (mark : Bool) :
    (s.abortHeads d k part status mark).wiring d = s.wiring d := by
  have hsend (t : State) (port vc : Nat) (far : Option Nat) (head : BlendHead) :
      (t.modDie d fun x => x.sendStream port k part vc far head 0 [] mark none).wiring d = t.wiring d :=
    State.wiring_modDie (Die.sendStream_ports ..)
  unfold State.abortHeads
  dsimp only
  split
  · refine State.wiring_foldl (fun t l => ?_) _
    split
    · exact hsend ..
    · rfl
  · split
    · refine State.wiring_foldl (fun t z => ?_) _
      split
      · exact hsend ..
      · rfl
    · repeat' split
      all_goals simp [hsend]

@[simp] theorem State.abortPour_wiring (k : PourKey) (status : BitVec 4) (heads mark : Bool) :
    (s.abortPour d k status heads mark).wiring d = s.wiring d := by
  unfold State.abortPour
  extract_lets x c part started ins m t u v
  have ht : t.wiring d = s.wiring d := State.wiring_modDie (Die.dropPour_ports ..)
  have hu : u.wiring d = t.wiring d := by unfold u; split <;> simp
  have hv : v.wiring d = u.wiring d := by unfold v; split <;> simp
  have hs : v.wiring d = s.wiring d := hv.trans (hu.trans ht)
  split
  · rfl
  · split
    · exact (State.wiring_modDie (Die.ports_of_stock (Die.touch_stock _))).trans hs
    · exact hs

@[simp] theorem State.abortLost_wiring (l : List PourKey) : (s.abortLost d l).wiring d = s.wiring d :=
  State.wiring_foldl (fun _ _ => State.abortPour_wiring ..) _

@[simp] theorem State.bridgeDown_wiring (p : Nat) : (s.bridgeDown d p).wiring d = s.wiring d := by
  have habort (t : State) (p : Pour → Bool) : (t.abortAll d 4 p).wiring d = t.wiring d :=
    State.wiring_foldl (fun _ _ => State.abortPour_wiring ..) _
  unfold State.bridgeDown
  extract_lets x other e t
  split
  · split
    · rfl
    · split
      · exact (habort ..).trans (State.raiseDie_wiring ..)
      · exact State.raiseDie_wiring ..
  · rfl

theorem State.noteColl_power (q l : Nat) (restored : Bool) (decl : Tick) :
    (s.noteColl q l restored decl).pow = s.pow ∧ (s.noteColl q l restored decl).bays = s.bays := by
  unfold State.noteColl
  extract_lets lost notes t
  split
  · exact ⟨rfl, rfl⟩
  · split <;> exact ⟨rfl, rfl⟩

theorem State.applyReach_power (q l : Nat) (restored : Bool) (decl : Tick) :
    (s.applyReach q l restored decl).pow = s.pow ∧ (s.applyReach q l restored decl).bays = s.bays := by
  unfold State.applyReach
  extract_lets k newer t
  split
  · exact ⟨rfl, rfl⟩
  · exact State.noteColl_power ..

theorem State.fabricLink_power (e : DieId) (p : Nat) (restored : Bool) :
    (s.fabricLink e p restored).pow = s.pow ∧ (s.fabricLink e p restored).bays = s.bays := by
  unfold State.fabricLink
  dsimp only
  split
  · exact State.noteColl_power ..
  · split
    · exact State.applyReach_power ..
    · exact ⟨rfl, rfl⟩

@[simp] theorem State.fabricLink_wiring (e : DieId) (p : Nat) (restored : Bool) : (s.fabricLink e p restored).wiring d = s.wiring d := by
  obtain ⟨hports, -, hfuse, htok⟩ := State.linkPart_eq_iff.1 (State.fabricLink_linkPart (s := s) (d := d) e p restored)
  exact State.wiring_eq_iff.2 ⟨hports, hfuse, htok, State.fabricLink_power e p restored⟩

/-! ### The tick of the die -/

@[simp] theorem State.reportRetrain_now (p : Nat) (failed : Bool) : ((s.reportRetrain d p failed).die d).now = (s.die d).now := by
  unfold State.reportRetrain
  dsimp only
  split <;> simp

@[simp] theorem State.endSweep_now (p : Nat) (result : BitVec 8) : ((s.endSweep d p result).die d).now = (s.die d).now := by
  unfold State.endSweep
  split
  · rfl
  · rw [State.raisePort_die, State.die_modDie, Die.modPort_now]
    rfl

/-! ### A port of the wiring -/

/-- A change of one port of the wiring is that change of the port, and leaves the other ports, the fuses, the token, the power and the bays. -/
theorem State.wiring_eq_setPort {p : Nat} {f : Port → Port} (h : t.wiring d = (s.wiring d).setPort p f) :
    (t.die d).port p = f ((s.die d).port p) ∧ (∀ r, r ≠ p → (t.die d).port r = (s.die d).port r) ∧ t.fuse = s.fuse ∧ t.tok = s.tok ∧
      t.pow = s.pow ∧ t.bays = s.bays := by
  obtain ⟨hports, hrest⟩ : (t.die d).ports = ((s.die d).modPort p f).ports ∧ t.fuse = s.fuse ∧ t.tok = s.tok ∧ t.pow = s.pow ∧
      t.bays = s.bays := by simpa [State.wiring, Wiring.setPort, Die.modPort, Die.port] using h
  have hport (r : Nat) : (t.die d).port r = ((s.die d).modPort p f).port r := by rw [Die.port, Die.port, hports]
  exact ⟨(hport p).trans (Die.port_modPort ..), fun r hr => (hport r).trans (Die.port_modPort_ne _ _ hr), hrest⟩

/-- Reporting the end of a `link.retrain` clears the port's wait for that report. -/
theorem State.reportRetrain_wiring (p : Nat) (failed : Bool) (f : Port → Port) :
    ((s.reportRetrain d p failed).wiring d).setPort p f = (s.wiring d).setPort p fun q => f { q with retrain := false } := by
  unfold State.reportRetrain
  dsimp only
  split
  case isTrue => rw [State.raisePort_wiring, State.wiring_modPort, Wiring.setPort_setPort]
  case isFalse h =>
    have hq : { (s.die d).port p with retrain := false } = (s.die d).port p := Port.eq_of_not_retrain h
    exact congrArg (fun q => { s.wiring d with ports := Map.put (s.die d).ports p (f q) }) hq.symm

/-- A port whose own sweep has been stopped: it is HELD (R177). -/
def Port.stopSweep (q : Port) : Port := if q.near.isSome then { q with near := none, state := .held } else q

/-- Ending a sweep stops the sweep that the port itself runs, if it runs one. -/
theorem State.endSweep_wiring (p : Nat) (result : BitVec 8) (f : Port → Port) :
    ((s.endSweep d p result).wiring d).setPort p f = (s.wiring d).setPort p fun q => f q.stopSweep := by
  unfold State.endSweep
  split
  case h_1 hnear =>
    have hq : (s.die d).port p = ((s.die d).port p).stopSweep := by simp [Port.stopSweep, hnear]
    exact congrArg (fun q => { s.wiring d with ports := Map.put (s.die d).ports p (f q) }) hq
  case h_2 n hnear =>
    extract_lets mine points t
    have ht : t.wiring d = s.wiring d := rfl
    have hq : ((s.die d).port p).stopSweep = { (s.die d).port p with near := none, state := .held } := by simp [Port.stopSweep, hnear]
    rw [State.raisePort_wiring, State.wiring_modPort, Wiring.setPort_setPort, ht]
    exact congrArg (fun q => { s.wiring d with ports := Map.put (s.die d).ports p (f q) }) hq.symm

/-! ### The failure -/

/-- A port after the failure of its link: reset, with no `link.retrain` to report and no sweep of its own (R152, R177, R442). -/
def Port.failed (q : Port) (dest : LinkState × BitVec 3) (fails : List Tick) : Port :=
  { q.resetLink dest.1 dest.2 with retrain := false, near := none, fails := fails }

/-- The failures that a port has counted after one for a cause in a row of Table 04-6 (R153, R442). -/
def failsAfter (now : Tick) (l : List Tick) (row : Nat) : List Tick := if row = 6 then recentFails now l else recentFails now l ++ [now]

/-- Resetting a port that has reported its retraining and stopped its sweep gives the failed port. -/
theorem Port.failed_eq (q : Port) (dest : LinkState × BitVec 3) (now : Tick) (row : Nat) :
    let r := ({ q with retrain := false } : Port).stopSweep
    { r.resetLink dest.1 dest.2 with fails := failsAfter now r.fails row } = q.failed dest (failsAfter now q.fails row) := by
  cases hnear : q.near <;> simp [Port.stopSweep, Port.failed, Port.resetLink, hnear]

/-- The failure of a link that can fail changes its port alone (R152, R153). -/
theorem State.failLink_wiring {p : Nat} (row : Nat) (hup : ((s.die d).port p).up = true) :
    (s.failLink d p row).wiring d = (s.wiring d).setPort p fun q =>
      q.failed (failTarget (s.die d).now ((s.die d).port p).fails row none) (failsAfter (s.die d).now q.fails row) := by
  unfold State.failLink
  extract_lets x q dest part pours told stopped emptied reset noted flapping ep lost
  rw [if_neg (by simp [q, x, hup])]
  have hreset : reset.wiring d = (s.wiring d).setPort p fun r => r.failed dest (failsAfter x.now r.fails row) := by
    have hempty : emptied.wiring d = stopped.wiring d := State.wiring_modDie (Die.failPackets_kept p).2
    have hnow : (emptied.die d).now = x.now := by simp [emptied, stopped, told, x, (Die.failPackets_kept p).1]
    refine (State.wiring_modPort p _).trans ?_
    rw [hempty, State.endSweep_wiring, State.reportRetrain_wiring]
    rw [hnow]
    exact congrArg ((s.wiring d).setPort p) (funext fun r => r.failed_eq dest x.now row)
  have hflap : flapping.wiring d = reset.wiring d := by
    unfold flapping
    split <;> simp [noted]
  have hlost : lost.wiring d = flapping.wiring d := by
    clear_value part
    unfold lost
    split
    · rw [State.raiseDie_wiring]
      exact State.wiring_modDie (Die.ports_of_stock (Die.touch_stock _))
    · rfl
  rw [State.bridgeDown_wiring, State.abortLost_wiring, State.fabricLink_wiring]
  exact hlost.trans (hflap.trans hreset)

/-- Without a link that can fail nothing happens (R150). -/
theorem State.failLink_of_down {p : Nat} (row : Nat) (hdown : ((s.die d).port p).up = false) : s.failLink d p row = s := by
  simp [State.failLink, hdown]

theorem failTarget_not_up {q : Port} (now : Tick) (l : List Tick) (row : Nat) (hq : q.state = (failTarget now l row none).1) :
    q.up = false := by
  unfold failTarget at hq
  split at hq <;> simp [Port.up, hq]

/-- What a failed link leaves: its port is not up, and the other ports, the power and the bays are as before. -/
theorem State.failLink_kept (p row : Nat) : (((s.failLink d p row).die d).port p).up = false ∧
    (∀ r, r ≠ p → ((s.failLink d p row).die d).port r = (s.die d).port r) ∧ (s.failLink d p row).pow = s.pow ∧
    (s.failLink d p row).bays = s.bays := by
  by_cases hup : ((s.die d).port p).up = true
  · obtain ⟨hport, hother, -, -, hpow, hbays⟩ := State.wiring_eq_setPort (State.failLink_wiring row hup)
    refine ⟨?_, hother, hpow, hbays⟩
    rw [hport]
    exact failTarget_not_up _ _ row rfl
  · have hdown : ((s.die d).port p).up = false := Bool.eq_false_iff.2 hup
    rw [State.failLink_of_down row hdown]
    exact ⟨hdown, fun _ _ => rfl, rfl, rfl⟩

end Wiring
end Sys2Proof.Machine
end

section
/-! SUPPORT. What each command of a margin sweep does on a powered die, at the far end and at the near end. -/

namespace Sys2Proof.Machine
variable {s : State} {d : DieId}

/-! ### The records of a sweep -/

@[simp] theorem State.modSweep_die (q : SweepReq) (f : SweepRec → SweepRec) (e : DieId) : (s.modSweep q f).die e = s.die e := by
  match e with | 0 => rfl | 1 => rfl | 2 => rfl | 3 => rfl

theorem State.sweeps_of_calm {t : State} (h : t.calm = s.calm) : t.sweeps = s.sweeps :=
  (congrArg State.sweeps h : t.calm.sweeps = s.calm.sweeps)

/-- The end of a sweep that the port runs: its record has the result, the port is HELD, and an event reports it (R173, R174, R177). -/
theorem State.endSweep_eq {p : Nat} {n : SweepNear} (hnear : ((s.die d).port p).near = some n) (r : BitVec 8) :
    ∃ detail, s.endSweep d p r = ((s.modSweep n.req fun e => { e with running := false, result := r }).modDie d fun x =>
      x.modPort p fun q => { q with near := none, state := .held }).raisePort 0x0384 d p r detail := by
  unfold State.endSweep
  rw [hnear]
  exact ⟨_, rfl⟩

theorem State.endSweep_near {p : Nat} {n : SweepNear} (hnear : ((s.die d).port p).near = some n) (r : BitVec 8) :
    ((s.endSweep d p r).die d).port p = { (s.die d).port p with near := none, state := .held } ∧
      (s.endSweep d p r).sweeps =
        s.sweeps.map fun e => if e.running && e.req == n.req then { e with running := false, result := r } else e := by
  obtain ⟨detail, heq⟩ := State.endSweep_eq hnear r
  rw [heq]
  exact ⟨by simp, (State.sweeps_of_calm (State.raisePort_calm ..)).trans (State.modDie_sweeps ..)⟩

variable {p : PortId} (hon : (s.die d).on = true)
include hon

/-! ### SWEEP words -/

section Words
variable {w : CtlWord} (hl : ((s.die d).port p.val).linked = true) (hm : mcrcOk w = true) (ht : cwType w = 0xAA)
include hl hm ht

/-- The far end's part of a sweep at its START (R170, R175). -/
abbrev Die.farPart (x : Die) (w : CtlWord) : Option SweepFar := some { word := w, last := x.now, since := x.now }

theorem exec_sweepStart_free (hnear : ((s.die d).port p.val).near = none) :
    exec (.sweepStart d p w) s = .next (s.setPort d p fun q => { q with state := .sweep, far := (s.die d).farPart w }) := by
  show execSweepStart d p w s = _
  rw [execSweepStart, State.onWord_sound hon hl hm ht]
  simp [State.takeFar, State.modDie, hnear]

theorem exec_sweepStart_wins (hnear : ((s.die d).port p.val).near ≠ none) (hwins : s.startWins d p.val = true) :
    exec (.sweepStart d p w) s = .next s.fresh := by
  show execSweepStart d p w s = _
  obtain ⟨n, hn⟩ := Option.ne_none_iff_exists'.1 hnear
  have hwins' : s.fresh.startWins d p.val = true := by simpa [State.startWins] using hwins
  rw [execSweepStart, State.onWord_sound hon hl hm ht]
  simp [hn, hwins']

theorem exec_sweepStart_loses {n : SweepNear} (hnear : ((s.die d).port p.val).near = some n) (hwins : s.startWins d p.val = false) :
    exec (.sweepStart d p w) s = .next (((s.fresh.endSweep d p.val 2).emit (.word d p.val (swReply w 7 0))).modDie d fun x =>
      x.modPort p.val fun q => { q with state := .sweep, far := (s.die d).farPart w }) := by
  show execSweepStart d p w s = _
  have hwins' : s.fresh.startWins d p.val = false := by simpa [State.startWins] using hwins
  rw [execSweepStart, State.onWord_sound hon hl hm ht]
  simp [hnear, hwins', State.takeFar, State.modDie]

/-- The port with its far part at a word that it accepts: the limit of 64 ticks begins anew (R171, R175). -/
abbrev State.farAccepted (s : State) (d : DieId) (p : PortId) (w : CtlWord) : State :=
  let x := s.die d
  s.setPort d p fun q => { q with far := q.far.map fun f =>
    { word := w, last := x.now, since := if swPoint f.word = swPoint w ∧ swLane f.word = swLane w then f.since else x.now } }

/-- The answer to a word of a sweep that the far end does not hold (R175). -/
abbrev State.farAborted (s : State) (d : DieId) (p : PortId) (w : CtlWord) : State := s.fresh.emit (.word d p.val (swReply w 6 0))

omit hon hl hm ht in
theorem State.farWord_holds (hfar : (s.die d).farHolds p.val w = true) : s.fresh.farWord d p.val w = s.farAccepted d p w := by
  simp [State.farWord, State.farAccepted, hfar, SweepFar.next, State.modDie]

omit hon hl hm ht in
theorem State.farWord_lost (hfar : (s.die d).farHolds p.val w = false) : s.fresh.farWord d p.val w = s.farAborted d p w := by
  simp [State.farWord, State.farAborted, hfar]

theorem exec_sweepKeepalive_far (hnear : ((s.die d).port p.val).near = none) :
    exec (.sweepKeepalive d p w) s = .next (s.fresh.farWord d p.val w) := by
  show execSweepKeepalive d p w s = _
  rw [execSweepKeepalive, State.onWord_sound hon hl hm ht]
  simp [hnear]

theorem exec_sweepPoint_far (hnear : ((s.die d).port p.val).near = none) :
    exec (.sweepPoint d p w) s = .next (s.fresh.farWord d p.val w) := by
  show execSweepPoint d p w s = _
  rw [execSweepPoint, State.onWord_sound hon hl hm ht]
  simp [hnear]

theorem exec_sweepEnd_far (hnear : ((s.die d).port p.val).near = none) : exec (.sweepEnd d p w) s =
    .next (if (s.die d).farHolds p.val w then
      s.setPort d p fun q => { q with far := none, state := .held, cause := if q.cause = 0 then 3 else q.cause }
      else s.farAborted d p w) := by
  show execSweepEnd d p w s = _
  rw [execSweepEnd, State.onWord_sound hon hl hm ht]
  simp [hnear, State.modDie, State.farAborted]

section Near
variable {n : SweepNear} (hnear : ((s.die d).port p.val).near = some n)
include hnear

theorem exec_sweepKeepalive_near : exec (.sweepKeepalive d p w) s = .next s.fresh := by
  show execSweepKeepalive d p w s = _
  rw [execSweepKeepalive, State.onWord_sound hon hl hm ht]
  simp [hnear]

theorem exec_sweepEnd_near : exec (.sweepEnd d p w) s = .next s.fresh := by
  show execSweepEnd d p w s = _
  rw [execSweepEnd, State.onWord_sound hon hl hm ht]
  simp [hnear]

theorem exec_sweepAborted_near : exec (.sweepAborted d p w) s =
    .next (if n.req.sweepId = swId w then s.fresh.endSweep d p.val 2 else s.fresh) := by
  show execSweepAborted d p w s = _
  rw [execSweepAborted, State.onWord_sound hon hl hm ht]
  simp [State.sweepEnded, hnear]

theorem exec_sweepBusy_near : exec (.sweepBusy d p w) s =
    .next (if s.startWins d p.val then s.fresh else if n.req.sweepId = swId w then s.fresh.endSweep d p.val 2 else s.fresh) := by
  show execSweepBusy d p w s = _
  have hwins : s.fresh.startWins d p.val = s.startWins d p.val := by simp [State.startWins]
  rw [execSweepBusy, State.onWord_sound hon hl hm ht]
  simp [State.sweepEnded, hnear, hwins]

theorem exec_sweepPoint_near : exec (.sweepPoint d p w) s =
    .next (if n.req.side = 1 ∧ n.req.sweepId = swId w ∧ n.lane = swLane w ∧ n.point = swPoint w then
      s.fresh.pointDone d p.val n (swErrors w) else s.fresh) := by
  show execSweepPoint d p w s = _
  rw [execSweepPoint, State.onWord_sound hon hl hm ht]
  simp [hnear, and_assoc]

end Near

end Words

/-! ### The far end's time -/

section Far
variable {f : SweepFar} (hfar : ((s.die d).port p.val).far = some f)
include hfar

theorem exec_sweepFarTimeout_far : exec (.sweepFarTimeout d p) s =
    .next (if within (s.die d).now f.last 64 then s.fresh else
      s.setPort d p fun q => if q.state = .sweep then { (q.resetLink .detect 0) with far := none } else { q with far := none }) := by
  show execSweepFarTimeout d p s = _
  cases hlate : within (s.die d).now f.last 64 <;> simp [execSweepFarTimeout, State.modDie, hon, hfar, hlate]

theorem exec_sweepPointDone_far (hnear : ((s.die d).port p.val).near = none) (hq : ((s.die d).port p.val).state = .sweep)
    (hrx : swFarRx f.word = true) (n : BitVec 16) : exec (.sweepPointDone d p n) s =
      .next (if reached (s.die d).now (f.since + 1 + (fld f.word 36 16).setWidth 48) then
        s.fresh.emit (.word d p.val (swReply f.word 3 n)) else s.fresh) := by
  show execSweepPointDone d p n s = _
  simp [execSweepPointDone, dwelt, hon, hfar, hnear, hq, hrx]

end Far

/-! ### The near end's time -/

section Near
variable {n : SweepNear} (hnear : ((s.die d).port p.val).near = some n)
include hnear

theorem exec_sweepKeepaliveSend_near (hq : ((s.die d).port p.val).state = .sweep) : exec (.sweepKeepaliveSend d p) s =
    .next ((s.setPort d p fun q => { q with near := some { n with lastSent := (s.die d).now } }).emit
      (.word d p.val (sweepWordOf n.req 2 n.lane.toNat n.point))) := by
  show execSweepKeepaliveSend d p s = _
  simp [execSweepKeepaliveSend, State.modDie, hon, hnear, hq]

theorem exec_sweepPointDone_near (hq : ((s.die d).port p.val).state = .sweep) (hside : n.req.side = 0) (c : BitVec 16) :
    exec (.sweepPointDone d p c) s =
      .next (if reached (s.die d).now (n.since + 1 + n.req.dwell.setWidth 48) then s.fresh.pointDone d p.val n c else s.fresh) := by
  show execSweepPointDone d p c s = _
  simp [execSweepPointDone, dwelt, hon, hnear, hq, hside]

end Near

/-! ### The end of a point -/

section Point
variable (n : SweepNear) (c : BitVec 16)
omit hon

/-- The count of a point is stored in the record of its sweep (R172, R173). -/
abbrev State.pointStored (s : State) (n : SweepNear) (c : BitVec 16) : State :=
  s.modSweep n.req fun r => { r with counts := Map.put r.counts (4096 * n.lane.toNat + n.point) c, done := r.done + 1 }

theorem State.pointDone_next (hmore : ¬(sweepPoints n.req).getD 0 ≤ n.point + 1) :
    s.pointDone d p.val n c = (s.pointStored n c).toPoint d p.val n n.lane.toNat (n.point + 1) := by
  unfold State.pointDone
  rw [if_pos (Nat.lt_of_not_le hmore)]

theorem State.pointDone_lane (hlast : (sweepPoints n.req).getD 0 ≤ n.point + 1) {l : Nat}
    (hl : laneAfter (sweepLanes (n.req.lanes.setWidth 4)) n.lane.toNat = some l) :
    s.pointDone d p.val n c = if sweepCarrier (n.req.lanes.setWidth 4) l = sweepCarrier (n.req.lanes.setWidth 4) n.lane.toNat then
        (s.pointStored n c).toPoint d p.val n l 0
      else ((s.pointStored n c).toPoint d p.val n l 0).requestSwitch d p.val
        (laneMask [sweepCarrier (n.req.lanes.setWidth 4) l]) false 4 false := by
  unfold State.pointDone
  rw [if_neg (Nat.not_lt.2 hlast), hl]

theorem State.pointDone_end (hlast : (sweepPoints n.req).getD 0 ≤ n.point + 1)
    (hl : laneAfter (sweepLanes (n.req.lanes.setWidth 4)) n.lane.toNat = none) :
    s.pointDone d p.val n c =
      (((s.pointStored n c).emit (.word d p.val (sweepWordOf n.req 5 n.lane.toNat n.point))).endSweep d p.val 0).requestSwitch d p.val 15
        false 4 false := by
  unfold State.pointDone
  rw [if_neg (Nat.not_lt.2 hlast), hl]

theorem State.toPoint_stored (lane point : Nat) : (s.fresh.pointStored n c).toPoint d p.val n lane point =
    ((s.fresh.pointStored n c).setDie d ((s.die d).modPort p.val fun q =>
      { q with near := some { n with lane := BitVec.ofNat 2 lane, point := point, lastSent := (s.die d).now,
                                     since := (s.die d).now } })).emit (.word d p.val (sweepWordOf n.req 3 lane point)) := by
  simp [State.toPoint, State.modDie]

end Point

end Sys2Proof.Machine
end

section
/-! The margin sweeps of both ends (O47). -/

namespace Sys2Proof.Machine

/-- Settles O47: each clause is the rule of its command. The handling of a collision, of ABORTED and of BUSY (log entry 82) and a START
that takes a port of any state into SWEEP (log entry 120, DESIGN CHOICE) are the model's readings. -/
theorem marginSweepsComplete : Obligations.MarginSweepsComplete := by
  unfold Obligations.MarginSweepsComplete
  intro s d p hon x q set
  refine ⟨?words, ?far, ?near⟩
  case words =>
    intro w hl hm ht far abort kept
    refine ⟨fun hnear => exec_sweepStart_free hon hl hm ht hnear, fun hnear hwins => exec_sweepStart_wins hon hl hm ht hnear hwins,
      fun n hnear hwins => ⟨_, exec_sweepStart_loses hon hl hm ht hnear hwins, rfl, ?_⟩, fun hnear => ⟨fun hfar => ?_, fun hfar => ?_⟩,
      fun n hnear => ⟨exec_sweepKeepalive_near hon hl hm ht hnear, exec_sweepEnd_near hon hl hm ht hnear, fun hid => ?_, fun hid => ?_⟩⟩
    · have hport := (State.endSweep_near (s := s.fresh) (d := d) (p := p.val) (by simpa using hnear) 2).1
      rw [State.die_modDie, Die.port_modPort, State.emit_die]
      exact congrArg Port.near hport
    · have hword := State.farWord_holds hfar
      exact ⟨(exec_sweepKeepalive_far hon hl hm ht hnear).trans (congrArg _ hword),
        (exec_sweepPoint_far hon hl hm ht hnear).trans (congrArg _ hword),
        (exec_sweepEnd_far hon hl hm ht hnear).trans (by rw [if_pos hfar])⟩
    · have hword := State.farWord_lost hfar
      exact ⟨(exec_sweepKeepalive_far hon hl hm ht hnear).trans (congrArg _ hword),
        (exec_sweepPoint_far hon hl hm ht hnear).trans (congrArg _ hword),
        (exec_sweepEnd_far hon hl hm ht hnear).trans (by rw [if_neg (Bool.eq_false_iff.1 hfar)])⟩
    · refine ⟨(exec_sweepAborted_near hon hl hm ht hnear).trans (by rw [if_pos hid]),
        (exec_sweepBusy_near hon hl hm ht hnear).trans (by rw [if_pos hid]), fun hside hlane hpoint => ?_⟩
      exact (exec_sweepPoint_near hon hl hm ht hnear).trans (by rw [if_pos ⟨hside, hid, hlane, hpoint⟩])
    · exact ⟨(exec_sweepAborted_near hon hl hm ht hnear).trans (by rw [if_neg hid]),
        (exec_sweepBusy_near hon hl hm ht hnear).trans (by rw [if_neg hid, ite_self]),
        (exec_sweepPoint_near hon hl hm ht hnear).trans (by rw [if_neg fun h => hid h.2.1])⟩
  case far =>
    intro f hfar
    have htimeout := exec_sweepFarTimeout_far hon hfar
    exact ⟨fun hlate => htimeout.trans (by rw [if_neg (Bool.eq_false_iff.1 hlate)]), fun hearly => htimeout.trans (by rw [if_pos hearly]),
      fun hnear hq hrx n => exec_sweepPointDone_far hon hfar hnear hq hrx n⟩
  case near =>
    intro n hnear
    refine ⟨fun r => ?_, fun hq => exec_sweepKeepaliveSend_near hon hnear hq, fun c => ⟨fun hq hside =>
      exec_sweepPointDone_near hon hnear hq hside c, ?_⟩⟩
    · have hend := State.endSweep_near (s := s.fresh) (d := d) (p := p.val) (by simpa using hnear) r
      rwa [State.fresh_die] at hend
    · intro mask stored go last
      have hgo (lane point : Nat) : (s.fresh.pointStored n c).toPoint d p.val n lane point = go lane point :=
        State.toPoint_stored n c lane point
      refine ⟨fun hmore => ?_, fun l hlast hl => ?_, fun hlast hl => State.pointDone_end n c hlast hl⟩
      · rw [State.pointDone_next n c hmore, hgo]
      · rw [State.pointDone_lane n c hlast hl, hgo]

end Sys2Proof.Machine
end

section
/-! SUPPORT. What lost lanes, switches and commands that take a port out of service do on a powered die, one rule for each case of chapter 04. -/

namespace Sys2Proof.Machine
variable {s : State} {d : DieId} {p : PortId}

/-! ### A failed port -/

/-- The port of a link that has failed for a counted cause: where it went, what it lost, and its failures (R152, R153). -/
theorem State.failLink_port {row : Nat} (hrow : row ≠ 6) (hup : ((s.die d).port p.val).up = true) :
    let q := (s.die d).port p.val
    let t := s.failLink d p.val row
    let r := (t.die d).port p.val
    r.state = (failTarget (s.die d).now q.fails row none).1 ∧ r.cause = (failTarget (s.die d).now q.fails row none).2 ∧ r.txPkts = [] ∧
      r.retry = [] ∧ r.txXon = 0 ∧ r.rxXon = 0 ∧ r.sw = none ∧ r.fails = recentFails (s.die d).now q.fails ++ [(s.die d).now] ∧
      t.tok = s.tok ∧ t.fuse = s.fuse := by
  intro q t r
  obtain ⟨hport, -, hfuse, htok, -, -⟩ := State.wiring_eq_setPort (State.failLink_wiring row hup)
  have hr : r = _ := hport
  rw [hr]
  exact ⟨rfl, rfl, rfl, rfl, rfl, rfl, rfl, if_neg hrow, htok, hfuse⟩

theorem Port.up_of_marks {q : Port} (h : q.marks = true ∨ q.state = .switching) : q.up = true := by
  cases hq : q.state <;> simp_all [Port.marks, Port.up]

/-! ### Lost lanes -/

/-- The port with a lane declared lost (R148). -/
abbrev Port.losesLane (q : Port) (i : Nat) : Port := { q with lost := setBit q.lost i true, locked := setBit q.locked i false }

/-- A lane that the port uses, or that a switch under way will use. -/
def Port.usesLane (q : Port) (i : Nat) : Bool := bit q.lanes i || q.sw.any fun w => bit w.lanes i

/-- A switch under way is to 106 Gb/s, or without one the port runs at 106 Gb/s (R662). -/
def Port.goesSlow (q : Port) : Bool := match q.sw with | some w => w.slow | none => !q.fullRate

/-- In a sweep, the port needs a lane that its switch under way takes, or without one a lane that it uses (R170). -/
def Port.needsLane (q : Port) (i : Nat) : Bool := match q.sw with | some w => bit w.lanes i | none => bit q.lanes i

/-- The lowest lane that is neither under sweep nor lost (R170). -/
def Port.spareLane (q : Port) : Option Nat := (List.range 4).find? fun j => !bit q.lost j && q.sweptLane != some j

section LaneLoss
variable (hon : (s.die d).on = true) (lane : Fin 4)
  (hq : ((s.die d).port p.val).marks = true ∨ ((s.die d).port p.val).state = .switching)
include hon hq

/-- A lost lane, in the three cases of R148: not in use, in a sweep, and in use outside a sweep. -/
theorem exec_laneLoss :
    let q := (s.die d).port p.val
    let unlocked := s.setPort d p fun q => { q with locked := setBit q.locked lane.val false }
    let lost := s.setPort d p fun q => q.losesLane lane.val
    let m := (q.losesLane lane.val).afterLoss (s.aim == 1 && decide (p.val < 64))
    exec (.laneLoss d p lane) s = .next (if q.usesLane lane.val = false then
        (if q.marks && (q.training || q.widen) then unlocked.emit (.word d p.val (unlocked.trainIdOf d p.val)) else unlocked)
      else if q.state = .sweep then lost.sweepLoss d p.val lane.val
      else if m = 0 ∨ 64 ≤ p.val then lost.failLink d p.val 2
      else lost.requestSwitch d p.val m q.goesSlow 0 true) := by
  intro q unlocked lost m
  show execLaneLoss d p lane s = _
  unfold execLaneLoss
  extract_lets u r i used t v w k
  have hr : r = q := by simp [r, u, q]
  have hused : used = q.usesLane lane.val := by
    unfold used Port.usesLane
    rw [hr]
    cases q.sw <;> rfl
  have ht : t = unlocked := by simp [t, u, unlocked, State.modDie, i]
  have hv : v = lost := by simp [v, u, lost, State.modDie, i]
  have hw : w = q.losesLane lane.val := by simp [w, hv, lost, q]
  have haim : v.aim = s.aim := by simp [State.aim, v, u]
  have hk : k = m := by rw [show k = w.afterLoss (v.aim == 1 && decide (p.val < 64)) from rfl, hw, haim]
  have hon' : (u.die d).on = true := by simpa [u] using hon
  have hmeets : (q.marks || q.state == .switching) = true := by rcases hq with h | h <;> simp [q, h]
  rw [hon', hr, hmeets, hused, ht, hv, hk, hw]
  cases hu : q.usesLane lane.val
  · simp
  · simp
    rfl

end LaneLoss

/-- A switch requested on a changed port: the port records it, and WIDTH_REQ is sent (R144). -/
theorem State.requestSwitch_setPort (g : Port → Port) (lanes : BitVec 4) (slow : Bool) (reason : BitVec 3) (byLoss : Bool) :
    let x := s.die d
    let y := g (x.port p.val)
    let w : Switch := { lanes := lanes, slow := slow, reason := reason, tick := switchTickAt x.now, byLoss := byLoss, start := x.now }
    (s.setPort d p g).requestSwitch d p.val lanes slow reason byLoss =
      (s.setPort d p fun _ => { y with sw := some w }).emit (.word d p.val (widthWord lanes slow reason y.lost w.tick)) := by
  intro x y w
  simp [State.requestSwitch, State.modDie, x, y, w]
  rfl

section SweepLoss
variable {i : Nat}

theorem State.sweepLoss_eq : s.sweepLoss d p.val i = if ((s.die d).port p.val).needsLane i = false then s
    else ((s.die d).port p.val).spareLane.elim (s.failLink d p.val 2) fun j =>
      s.requestSwitch d p.val (laneMask [j]) false 0 true := by
  unfold State.sweepLoss
  extract_lets q needed
  have hneeded : needed = q.needsLane i := by
    unfold needed Port.needsLane
    cases q.sw <;> rfl
  rw [hneeded, Port.spareLane]
  cases q.needsLane i
  · rfl
  · cases (List.range 4).find? fun j => !bit q.lost j && q.sweptLane != some j <;> rfl

/-- In a sweep, a lost lane that the port does not need changes nothing more. -/
theorem State.sweepLoss_unneeded (hn : ((s.die d).port p.val).needsLane i = false) : s.sweepLoss d p.val i = s := by
  rw [State.sweepLoss_eq, if_pos hn]

variable (hn : ((s.die d).port p.val).needsLane i = true)
include hn

/-- In a sweep, the loss of a lane that the port needs moves the carrier to the spare lane (R170). -/
theorem State.sweepLoss_moves {j : Nat} (hspare : ((s.die d).port p.val).spareLane = some j) :
    s.sweepLoss d p.val i = s.requestSwitch d p.val (laneMask [j]) false 0 true := by
  rw [State.sweepLoss_eq, if_neg (by simp [hn]), hspare]
  rfl

/-- Without a spare lane it fails the link (R148). -/
theorem State.sweepLoss_fails (hspare : ((s.die d).port p.val).spareLane = none) : s.sweepLoss d p.val i = s.failLink d p.val 2 := by
  rw [State.sweepLoss_eq, if_neg (by simp [hn]), hspare]
  rfl

end SweepLoss

/-! ### Switches -/

section Switch
variable {w : Switch} (hon : (s.die d).on = true) (hsw : ((s.die d).port p.val).sw = some w)
include hon hsw

theorem exec_switchStart_due (hdue : reached (s.die d).now w.tick = true) (hq : ((s.die d).port p.val).carries = true) :
    exec (.switchStart d p) s = .next (s.setPort d p fun q => { q with state := .switching }) := by
  show execSwitchStart d p s = _
  simp [execSwitchStart, State.modDie, hon, hsw, hdue, hq]

theorem exec_switchTimeout_late (hlate : (w.byLoss = true ∧ within (s.die d).now w.start (20000 / (s.die d).ns) = false) ∨
      (w.byLoss = false ∧ reached (s.die d).now w.tick = true ∧ within (s.die d).now w.tick (20000 / (s.die d).ns) = false)) :
    exec (.switchTimeout d p) s = .next (s.fresh.failLink d p.val 2) := by
  show execSwitchTimeout d p s = _
  rcases hlate with ⟨hloss, hlate⟩ | ⟨hloss, hdue, hlate⟩
  · simp [execSwitchTimeout, hon, hsw, hloss, hlate]
  · simp [execSwitchTimeout, hon, hsw, hloss, hdue, hlate]

end Switch

theorem exec_linkFail_up (hon : (s.die d).on = true) (hup : ((s.die d).port p.val).up = true) : exec (.linkFail d p) s =
    .next (if ((s.die d).port p.val).inSwitch then s.fresh else s.fresh.failLink d p.val 1) := by
  show execLinkFail d p s = _
  cases hq : ((s.die d).port p.val).inSwitch <;> simp [execLinkFail, hon, hup, hq]

/-! ### A port taken out of service -/

/-- A packet that waits for the port (R439). -/
abbrev Held.waitsFor (h : Held) (p : Nat) : Bool := h.outPort == p && (h.bin == .queue || h.bin == .circuit)

/-- The die with a port taken out of service by `link.config`: DISABLED with its retry state lost, or HELD (R439). -/
def Die.takenOut (x : Die) (p : Nat) (dest : LinkState) : Die :=
  let y := x.discardHeld (fun h => h.waitsFor p) (fun _ => cPort 2 1 p) false
  if dest == .disabled then
    ((x.port p).txPkts.foldl (fun (z : Die) t => z.discard { dst := t.dst, part := t.part } (cPort 2 1 p)) y).modPort p fun q =>
      q.resetLink .disabled 3
  else y.modPort p fun q => { q with state := .held, cause := 3, leaveTo := none }

/-- Taking a port out of service discards the packets queued for it, sets its state, and leaves the written tables. -/
theorem Die.takenOut_kept (x : Die) (p : Nat) (dest : LinkState) :
    (x.takenOut p dest).held = x.held.filter (fun h => !h.waitsFor p) ∧ (x.takenOut p dest).tab = x.tab ∧
      (x.takenOut p dest).port p = if dest = .disabled then (x.port p).resetLink .disabled 3
        else { x.port p with state := .held, cause := 3, leaveTo := none } := by
  unfold Die.takenOut
  extract_lets y
  have hy : y.stock = ⟨x.now, x.ports, x.tab, x.held.filter fun h => !h.waitsFor p⟩ := Die.discardHeld_stock ..
  have kept {z : Die} (hz : z.stock = y.stock) : z.held = x.held.filter (fun h => !h.waitsFor p) ∧ z.tab = x.tab ∧ z.port p = x.port p := by
    have h := hz.trans hy
    have hports : z.ports = x.ports := congrArg Stock.ports h
    exact ⟨congrArg Stock.held h, congrArg Stock.tab h, by rw [Die.port, Die.port, hports]⟩
  split
  case isTrue hdest =>
    obtain ⟨hheld, htab, hport⟩ := kept (Die.stock_foldl (x := y)
      (fun (z : Die) (t : TxPkt) => Die.discard_stock (x := z) { dst := t.dst, part := t.part } (cPort 2 1 p) false) (x.port p).txPkts)
    refine ⟨hheld, htab, ?_⟩
    rw [Die.port_modPort, hport, if_pos (by simpa using hdest)]
  case isFalse hdest =>
    obtain ⟨hheld, htab, hport⟩ := kept rfl
    refine ⟨hheld, htab, ?_⟩
    rw [Die.port_modPort, hport, if_neg (by simpa using hdest)]

section Hold
variable {dest : LinkState} (up : Bool) (hleave : ((s.die d).port p.val).leaveTo = some dest)
include hleave

theorem exec_linkHoldDone_over (hon : (s.die d).on = true) (hover : up = true ∨ (s.die d).emptied p.val = true) :
    let t := s.fresh.setDie d ((s.die d).takenOut p.val dest)
    exec (.linkHoldDone d p up) s = .next (if ((s.die d).port p.val).inService then t.bridgeDown d p.val else t) := by
  intro t
  show execLinkHoldDone d p up s = _
  have hover' : (s.die d).emptied p.val = true ∨ up = true := hover.symm
  simp [execLinkHoldDone, hleave, hon, hover', State.modDie, t, Die.takenOut]

theorem exec_linkHoldDone_waits (hup : up = false) (hheld : (s.die d).emptied p.val = false) :
    exec (.linkHoldDone d p up) s = .next s.fresh := by
  show execLinkHoldDone d p up s = _
  simp [execLinkHoldDone, hleave, hup, hheld]

end Hold

end Sys2Proof.Machine
end

section
/-! SUPPORT. The end of a width or rate switch. -/

namespace Sys2Proof.Machine
variable {s t : State} {d : DieId}

/-! ### What leaves the tray with an event -/

@[simp] theorem State.post_out_subset (c : Nat) (ev : Event) : s.out ⊆ (s.post c ev).out := by
  unfold State.post
  dsimp only
  split
  · exact List.subset_append_left ..
  · exact List.Subset.refl _

/-- Raising an event takes nothing back of what has left the tray. -/
theorem State.raise_out_subset (ev : Event) : s.out ⊆ (s.raise ev).out := by
  unfold State.raise
  rw [State.traceWrite_out]
  have hpost (l : List Nat) : s.out ⊆ (l.foldl (fun s c => s.post c ev) s).out :=
    List.foldlRecOn (motive := fun t : State => s.out ⊆ t.out) _ _ (List.Subset.refl _) fun _ h c _ =>
      List.Subset.trans h (State.post_out_subset c ev)
  exact List.foldlRecOn (motive := fun t : State => s.out ⊆ t.out) _ _ (hpost _) fun _ h _ _ =>
    List.Subset.trans h (List.subset_append_left ..)

/-! ### What follows the end of a switch -/

/-- What follows the end of a switch on port `p` of die `d` keeps the port's lanes, rate and state and the other dies, and takes back nothing
that was sent. -/
structure State.FollowedBy (d : DieId) (p : Nat) (s t : State) : Prop where
  lanes : ((t.die d).port p).lanes = ((s.die d).port p).lanes
  fullRate : ((t.die d).port p).fullRate = ((s.die d).port p).fullRate
  state : ((t.die d).port p).state = ((s.die d).port p).state
  out : s.out ⊆ t.out
  others : ∀ e, e ≠ d → t.die e = s.die e

variable {p : Nat}

theorem State.FollowedBy.refl (s : State) : s.FollowedBy d p s := ⟨rfl, rfl, rfl, List.Subset.refl _, fun _ _ => rfl⟩

theorem State.FollowedBy.trans {u : State} (h : s.FollowedBy d p t) (k : t.FollowedBy d p u) : s.FollowedBy d p u :=
  ⟨k.lanes.trans h.lanes, k.fullRate.trans h.fullRate, k.state.trans h.state, List.Subset.trans h.out k.out,
    fun e he => (k.others e he).trans (h.others e he)⟩

theorem State.FollowedBy.of_calm (h : t.calm = s.calm) (hout : s.out ⊆ t.out) : s.FollowedBy d p t := by
  have hdie (e : DieId) : t.die e = s.die e := State.die_of_calm h e
  exact ⟨by rw [hdie], by rw [hdie], by rw [hdie], hout, fun e _ => hdie e⟩

theorem State.followedBy_raiseDie (op : Nat) (e : DieId) (port part vc cause : Byte) (detail : List Byte) :
    s.FollowedBy d p (s.raiseDie op e port part vc cause detail) := .of_calm (State.raiseDie_calm ..) (State.raise_out_subset _)

theorem State.followedBy_raisePort (op : Nat) (e : DieId) (r : Nat) (cause : Byte) (detail : List Byte) :
    s.FollowedBy d p (s.raisePort op e r cause detail) := State.followedBy_raiseDie ..

theorem State.followedBy_emit (o : Out) : s.FollowedBy d p (s.emit o) :=
  ⟨by simp, by simp, by simp, List.subset_append_left .., fun e _ => by simp⟩

/-- A change of the die that keeps the port's lanes, rate and state. -/
theorem State.followedBy_modDie {f : Die → Die} (hl : ((f (s.die d)).port p).lanes = ((s.die d).port p).lanes)
    (hf : ((f (s.die d)).port p).fullRate = ((s.die d).port p).fullRate) (hs : ((f (s.die d)).port p).state = ((s.die d).port p).state) :
    s.FollowedBy d p (s.modDie d f) :=
  ⟨by rw [State.die_modDie, hl], by rw [State.die_modDie, hf], by rw [State.die_modDie, hs], by simp, fun e he => State.die_modDie_ne s f he⟩

theorem State.followedBy_modPort {f : Port → Port} (hf : ∀ q, (f q).lanes = q.lanes ∧ (f q).fullRate = q.fullRate ∧ (f q).state = q.state) :
    s.FollowedBy d p (s.modDie d fun x => x.modPort p f) := by
  obtain ⟨hl, hr, hs⟩ := hf ((s.die d).port p)
  exact State.followedBy_modDie (by simp [hl]) (by simp [hr]) (by simp [hs])

theorem State.followedBy_reportRetrain (failed : Bool) : s.FollowedBy d p (s.reportRetrain d p failed) := by
  unfold State.reportRetrain
  dsimp only
  split
  · refine State.FollowedBy.trans ?_ (State.followedBy_raisePort ..)
    exact State.followedBy_modPort fun _ => ⟨rfl, rfl, rfl⟩
  · exact .refl s

theorem State.followedBy_requestSwitch (lanes : BitVec 4) (slow : Bool) (reason : BitVec 3) (byLoss : Bool) :
    s.FollowedBy d p (s.requestSwitch d p lanes slow reason byLoss) := by
  refine State.FollowedBy.trans ?_ (State.followedBy_emit _)
  exact State.followedBy_modPort fun _ => ⟨rfl, rfl, rfl⟩

theorem State.followedBy_rewiden : s.FollowedBy d p (s.rewiden d p) := by
  unfold State.rewiden
  extract_lets q
  split
  · exact .refl s
  · split
    · exact State.followedBy_requestSwitch ..
    · exact State.followedBy_requestSwitch ..
    · exact .refl s

theorem State.followedBy_settleBound : s.FollowedBy d p (s.settleBound d p) := by
  unfold State.settleBound
  extract_lets q m wider t u keep
  have ht : s.FollowedBy d p t := State.followedBy_modPort fun _ => ⟨rfl, rfl, rfl⟩
  have hu : t.FollowedBy d p u := by
    unfold u
    split
    · exact State.followedBy_requestSwitch ..
    · exact State.followedBy_reportRetrain _
  split
  · exact State.followedBy_reportRetrain _
  · refine State.FollowedBy.trans (ht.trans hu) ?_
    exact State.followedBy_modPort fun _ => ⟨rfl, rfl, rfl⟩

theorem State.followedBy_checkShrunk (c : Nat) (e : BitVec 64) : s.FollowedBy d p (s.checkShrunk d c e) := by
  unfold State.checkShrunk
  extract_lets x q
  split
  · exact .refl s
  · split
    · exact State.followedBy_modDie rfl rfl rfl
    · split
      · exact .refl s
      · refine State.FollowedBy.trans ?_ (State.followedBy_raiseDie ..)
        exact State.followedBy_modDie rfl rfl rfl

theorem State.followedBy_checkPortCircuits : s.FollowedBy d p (s.checkPortCircuits d p) :=
  List.foldlRecOn (motive := fun t : State => s.FollowedBy d p t) _ _ (.refl s) fun _ h _ _ => h.trans (State.followedBy_checkShrunk ..)

/-! ### SWITCH_COMPLETE -/

/-- The port at its new width and rate, with the NAK that asks for the next expected block where it was in SWITCH (R145). -/
def State.switchedOver (s : State) (d : DieId) (p : Nat) (w : Switch) : State :=
  let q := (s.die d).port p
  let t := s.modDie d fun x => x.switched p w
  if q.state == .switching then
    (t.modDie d fun x => x.modPort p fun r => { r with nakSent := some (r.rxNext, x.now), nakOut := 0 }).emit
      (.word d p (nakWord q.rxNext))
  else t

/-- The reports of a narrower width and of the lanes that train, and the further switch or the end of the training's bound (R143, R148, R149,
R443, R664). -/
def State.switchReports (s : State) (d : DieId) (p : Nat) (w : Switch) : State :=
  let s := if w.byLoss && popCount w.lanes ≠ 4 then s.raiseDegrade d p else s
  let r := (s.die d).port p
  let s := if r.training || r.widen then s.emit (.word d p (s.trainIdOf d p)) else s
  if r.settle && r.training then (s.modDie d fun x => x.modPort p fun q => { q with settle := false }).settleBound d p
  else if r.training then s.rewiden d p
  else (s.reportRetrain d p false).rewiden d p

theorem exec_switchComplete_due {p : PortId} {w : Switch} (hon : (s.die d).on = true) (hsw : ((s.die d).port p.val).sw = some w)
    (hq : ((s.die d).port p.val).carries = false) (hdue : reached (s.die d).now w.tick = true) :
    exec (.switchComplete d p) s = .next (((s.fresh.switchedOver d p.val w).switchReports d p.val w).checkPortCircuits d p.val) := by
  show execSwitchComplete d p s = _
  unfold execSwitchComplete
  extract_lets u x q
  have hx : x = s.die d := State.fresh_die s d
  have hq' : q = (s.die d).port p.val := by rw [← hx]
  have hsw' : q.sw = some w := by rw [hq', hsw]
  have hdo : (x.on && !q.carries && reached x.now w.tick) = true := by rw [hq', hx, hon, hq, hdue]; rfl
  rw [hsw']
  exact congrArg Host.Outcome.next (if_pos hdo)

/-- The port at the end of a switch has the new lanes and rate, and none under way; one in SWITCH is ACTIVE again (R145). -/
theorem State.switchedOver_port (w : Switch) :
    let q := (s.die d).port p
    let r := ((s.switchedOver d p w).die d).port p
    r.lanes = w.lanes ∧ r.fullRate = !w.slow ∧ r.sw = none ∧
      r.state = (if q.state = .switching then (if w.slow then .activePw else .active) else q.state) ∧
      (q.training = false → r.training = false) ∧ (q.widen = false → r.widen = false) := by
  intro q r
  unfold r State.switchedOver
  extract_lets t
  have ht : (t.die d).port p = ((s.die d).switched p w).port p := by simp [t]
  split
  · simp +contextual [ht, Die.switched, q]
  · simp +contextual [ht, Die.switched, q]

/-- At the end of a switch the next expected block is asked for, and the other dies stay as they are (R145). -/
theorem State.switchedOver_sent (w : Switch) :
    (((s.die d).port p).state = .switching → Out.word d p (nakWord ((s.die d).port p).rxNext) ∈ (s.switchedOver d p w).out) ∧
      ∀ e, e ≠ d → (s.switchedOver d p w).die e = s.die e := by
  unfold State.switchedOver
  extract_lets q t
  refine ⟨fun hs => ?_, fun e he => ?_⟩
  · rw [if_pos (by simp [q, hs])]
    simp [q]
  · have ht : t.die e = s.die e := State.die_modDie_ne s _ he
    split
    · rw [State.emit_die, State.die_modDie_ne _ _ he, ht]
    · exact ht

theorem State.followedBy_switchReports (w : Switch) : s.FollowedBy d p (s.switchReports d p w) := by
  unfold State.switchReports
  extract_lets t r u
  have ht : s.FollowedBy d p t := by
    unfold t
    split
    · exact State.followedBy_raisePort ..
    · exact .refl s
  have hu : t.FollowedBy d p u := by
    unfold u
    split
    · exact State.followedBy_emit _
    · exact .refl t
  refine (ht.trans hu).trans ?_
  split
  · refine State.FollowedBy.trans ?_ State.followedBy_settleBound
    exact State.followedBy_modPort fun _ => ⟨rfl, rfl, rfl⟩
  · split
    · exact State.followedBy_rewiden
    · exact State.FollowedBy.trans (State.followedBy_reportRetrain _) State.followedBy_rewiden

/-- A port that trains no lane requests no further switch. -/
theorem State.rewiden_untrained (ht : ((s.die d).port p).training = false) (hw : ((s.die d).port p).widen = false) :
    s.rewiden d p = s := by
  simp [State.rewiden, Port.raiseTo, Port.widenTo, ht, hw]

/-- Where no lane trains, those reports request no switch. -/
theorem State.switchReports_sw_untrained (w : Switch) (ht : ((s.die d).port p).training = false) (hw : ((s.die d).port p).widen = false) :
    (((s.switchReports d p w).die d).port p).sw = ((s.die d).port p).sw := by
  unfold State.switchReports
  extract_lets t r u
  have htport : r = (s.die d).port p := by
    unfold r t
    split
    · rw [State.raiseDegrade, State.raisePort_die]
    · rfl
  have hu : u = t := by simp [u, htport, ht, hw]
  have hport : ((t.reportRetrain d p false).die d).port p = { r with retrain := false } := State.reportRetrain_port ..
  rw [hu, htport, ht]
  simp only [Bool.and_false, Bool.false_eq_true, if_false]
  rw [State.rewiden_untrained (by rw [hport, htport, ht]) (by rw [hport, htport, hw]), hport, htport]

end Sys2Proof.Machine
end

section
/-! Switches, lost lanes and failed links (O46). -/

namespace Sys2Proof.Machine

/-- Settles O46: a lost lane, the two ends of a switch, a failure and the end of a hold are each the rule of their command. A failed link
leaves what `State.failLink_port` says, and the completed switch is followed through its reports, which leave lanes, rate, state and
what was sent alone (`State.FollowedBy`). What a hold keeps and counts (log entry 78), where the 20 us run from (log entry 80), the
carrier in a sweep (log entry 82) and a bridge that fails at one lane (log entry 137) are the model's readings. -/
theorem switchesAndLossComplete : Obligations.SwitchesAndLossComplete := by
  unfold Obligations.SwitchesAndLossComplete
  intro s d p hon x q set failed
  have hfails (u : State) {row : Nat} (hrow : row ≠ 6) (hup : ((u.die d).port p.val).up = true) (hf : ((u.die d).port p.val).fails = q.fails)
      (hnow : (u.die d).now = x.now) (htok : u.tok = s.tok) (hfuse : u.fuse = s.fuse) : failed (u.failLink d p.val row) row := by
    have h := State.failLink_port hrow hup
    simp only [hf, hnow, htok, hfuse] at h
    exact h
  refine ⟨?loss, ?switch, ?timeout, ?fail, ?hold⟩
  case loss =>
    intro lane hq i used slow y m
    have hexec := exec_laneLoss hon lane hq
    have hport : ((s.setPort d p fun q => q.losesLane i).die d).port p.val = y := by simp [y, q, x]
    have hlost : failed ((s.setPort d p fun q => q.losesLane i).failLink d p.val 2) 2 :=
      hfails _ (by decide) (by rw [hport]; exact Port.up_of_marks (q := y) hq) (by rw [hport]) (by simp [x]) (by simp) (by simp)
    refine ⟨fun hused => hexec.trans (congrArg _ (if_pos hused)), fun hused hs => ?_, fun hused hs => ?_⟩
    · have hwide := hexec.trans (congrArg _ ((if_neg (ne_false_of_eq_true hused)).trans (if_neg hs)))
      refine ⟨fun hm hp => ?_, fun hm => ⟨_, hwide.trans (congrArg _ (if_pos hm)), hlost⟩⟩
      exact hwide.trans (congrArg _ ((if_neg fun h => h.elim hm (Nat.not_le.2 hp)).trans (State.requestSwitch_setPort ..)))
    · have hsweep := hexec.trans (congrArg _ ((if_neg (ne_false_of_eq_true hused)).trans (if_pos hs)))
      intro needed free
      refine ⟨fun hn => ?_, fun j hn hfree => ?_, fun hn hfree => ?_⟩
      · exact hsweep.trans (congrArg _ (State.sweepLoss_unneeded (by rw [hport]; exact hn)))
      · exact hsweep.trans (congrArg _ (State.sweepLoss_moves (by rw [hport]; exact hn) (by rw [hport]; exact hfree)))
      · refine ⟨_, hsweep.trans (congrArg _ (State.sweepLoss_fails (by rw [hport]; exact hn) (by rw [hport]; exact hfree))), hlost⟩
  case switch =>
    intro w hsw hdue
    refine ⟨fun hq => exec_switchStart_due hon hsw hdue hq, fun hq => ⟨_, exec_switchComplete_due hon hsw hq hdue, ?_⟩⟩
    have hafter := (State.followedBy_switchReports (s := s.fresh.switchedOver d p.val w) (d := d) (p := p.val) w).trans
      State.followedBy_checkPortCircuits
    obtain ⟨hlanes, hrate, hfree, hstate, htrain, hwiden⟩ := State.switchedOver_port (s := s.fresh) (d := d) (p := p.val) w
    obtain ⟨hnak, hothers⟩ := State.switchedOver_sent (s := s.fresh) (d := d) (p := p.val) w
    simp only [State.fresh_die] at hlanes hrate hstate htrain hwiden hnak hothers
    refine ⟨hafter.lanes.trans hlanes, hafter.fullRate.trans hrate, fun ht hw => ?_, hafter.state.trans hstate,
      fun hs => hafter.out (hnak hs), fun e he => (hafter.others e he).trans (hothers e he)⟩
    rw [State.port_of_linkPart (State.checkPortCircuits_linkPart ..), State.switchReports_sw_untrained w (htrain ht) (hwiden hw), hfree]
  case timeout =>
    intro w hsw hup hlate
    exact ⟨_, exec_switchTimeout_late hon hsw hlate,
      hfails s.fresh (by decide) (by simpa using hup) (by simp [q, x]) (by simp [x]) rfl rfl⟩
  case fail =>
    intro hup
    have hexec := exec_linkFail_up hon hup
    exact ⟨fun hq => ⟨_, hexec.trans (by rw [if_neg (Bool.eq_false_iff.1 hq)]),
      hfails s.fresh (by decide) (by simpa using hup) (by simp [q, x]) (by simp [x]) rfl rfl⟩, fun hq => hexec.trans (by rw [if_pos hq])⟩
  case hold =>
    intro dest up hleave mine
    refine ⟨fun hover => ⟨_, exec_linkHoldDone_over up hleave hon hover, ?_⟩, fun hup hheld => exec_linkHoldDone_waits up hleave hup hheld⟩
    obtain ⟨hheld, htab, hport⟩ := Die.takenOut_kept x p.val dest
    rw [State.die_setDie, hport]
    refine ⟨hheld, ?_, ?_, ?_, htab, by simp, fun e he => (State.die_setDie_ne _ _ he).trans (State.fresh_die ..)⟩
    all_goals split <;> rfl

end Sys2Proof.Machine
end

section
/-! SUPPORT. The bays, their ports, and the frames that read a caddy. -/

namespace Sys2Proof.Machine
variable {s : State} {c : BayId}

/-! ### Bays -/

@[simp] theorem State.bay_modBay (f : Bay → Bay) : (s.modBay c f).bay c = f (s.bay c) := by
  simp [State.modBay, State.bay, Map.upd]

/-- A change of a bay is read off the bay as it is. -/
theorem State.modBay_congr {f g : Bay → Bay} (h : f (s.bay c) = g (s.bay c)) : s.modBay c f = s.modBay c g :=
  congrArg (fun b => { s with bays := Map.put s.bays c.val b }) h

theorem State.bay_of_bays {t : State} (h : t.bays = s.bays) : t.bay c = s.bay c := by rw [State.bay, State.bay, h]

@[simp] theorem State.modBay_die (f : Bay → Bay) (e : DieId) : (s.modBay c f).die e = s.die e := by
  match e with | 0 => rfl | 1 => rfl | 2 => rfl | 3 => rfl

@[simp] theorem State.planPower_die (e : DieId) : s.planPower.die e = s.die e := by
  match e with | 0 => rfl | 1 => rfl | 2 => rfl | 3 => rfl

@[simp] theorem State.planPower_bay : s.planPower.bay c = s.bay c := rfl

/-! ### The ports of a bay -/

/-- Marking some ports as leaving, or lifting the mark, changes those ports alone (R163, R167). -/
theorem Die.port_foldl_leaving (m : Bool) (r : Nat) (l : List Nat) (x : Die) :
    (l.foldl (fun (x : Die) p => x.modPort p fun q => { q with leaving := m }) x).port r =
      if r ∈ l then { x.port r with leaving := m } else x.port r := by
  induction l generalizing x with
  | nil => simp
  | cons a l ih =>
    rw [List.foldl_cons, ih]
    by_cases hr : r = a
    · subst hr
      by_cases hl : r ∈ l <;> simp [hl]
    · rw [Die.port_modPort_ne _ _ hr]
      simp [hr]

theorem State.markBay_port (m : Bool) (r : Nat) : ((s.markBay c m).die (bayDie c)).port r =
    if r ∈ bayPorts c then { (s.die (bayDie c)).port r with leaving := m } else (s.die (bayDie c)).port r := by
  rw [State.markBay, State.die_modDie, Die.port_foldl_leaving]

theorem State.markBay_die_ne (m : Bool) {e : DieId} (he : e ≠ bayDie c) : (s.markBay c m).die e = s.die e := State.die_modDie_ne s _ he

@[simp] theorem State.markBay_bay (m : Bool) (e : BayId) : (s.markBay c m).bay e = s.bay e := State.bay_of_bays (State.modDie_bays ..)

/-- A mark does not change whether a link can fail. -/
theorem State.markBay_up (m : Bool) (r : Nat) :
    (((s.markBay c m).die (bayDie c)).port r).up = ((s.die (bayDie c)).port r).up := by
  rw [State.markBay_port]
  split <;> rfl

section FailLinks
variable {d : DieId} {row : Nat}

/-- After the links of a list of ports have failed, a port that is up was up before, and is none of them. -/
theorem State.up_of_failLinks_up {r : Nat} (l : List Nat) (s : State)
    (hup : (((l.foldl (fun (t : State) p => t.failLink d p row) s).die d).port r).up = true) :
    r ∉ l ∧ ((s.die d).port r).up = true := by
  induction l generalizing s with
  | nil => exact ⟨List.not_mem_nil, hup⟩
  | cons a l ih =>
    obtain ⟨hl, hup'⟩ := ih _ hup
    obtain ⟨hdown, hother, -⟩ := State.failLink_kept (s := s) (d := d) a row
    have hra : r ≠ a := by
      rintro rfl
      rw [hdown] at hup'
      exact Bool.false_ne_true hup'
    rw [hother r hra] at hup'
    exact ⟨by simp [hra, hl], hup'⟩

theorem State.failLinks_down (l : List Nat) (s : State) :
    ∀ p ∈ l, (((l.foldl (fun (t : State) r => t.failLink d r row) s).die d).port p).up = false := fun _ hp =>
  Bool.eq_false_iff.2 fun hup => (State.up_of_failLinks_up l s hup).1 hp

/-- Failing the links of those ports of a list that pass a test leaves the power and the bays. -/
theorem State.failLinks_kept (test : State → Nat → Bool) (l : List Nat) :
    (l.foldl (fun (t : State) p => if test t p then t.failLink d p row else t) s).pow = s.pow ∧
      (l.foldl (fun (t : State) p => if test t p then t.failLink d p row else t) s).bays = s.bays := by
  refine List.foldlRecOn (motive := fun t : State => t.pow = s.pow ∧ t.bays = s.bays) _ _ ⟨rfl, rfl⟩ fun t h p _ => ?_
  obtain ⟨-, -, hpow, hbays⟩ := State.failLink_kept (s := t) (d := d) p row
  split
  · exact ⟨hpow.trans h.1, hbays.trans h.2⟩
  · exact h

end FailLinks

/-! ### Frames of the FPSM -/

/-- The state without the flash master and what has left the tray. -/
def State.besideFpsm (s : State) : State := { s with fw := {}, out := [] }

@[simp] theorem State.setFpsm_besideFpsm (p : Fpsm) : (s.setFpsm p).besideFpsm = s.besideFpsm := rfl

@[simp] theorem State.beginRead_besideFpsm (l n : Nat) : (s.beginRead l n).besideFpsm = s.besideFpsm := rfl

@[simp] theorem State.startWork_besideFpsm : s.startWork.besideFpsm = s.besideFpsm := by
  unfold State.startWork
  extract_lets p
  split
  · rfl
  · split
    · rw [State.beginRead_besideFpsm, State.setFpsm_besideFpsm]
    · rfl
    · rw [State.beginRead_besideFpsm, State.setFpsm_besideFpsm]
    · rfl

/-- A caddy frame that takes its turn changes the flash master and what leaves the tray, and nothing else (R512). -/
theorem State.askCaddy_besideFpsm (f : CaddyFrame) : (s.askCaddy f).besideFpsm = s.besideFpsm := by
  rw [State.askCaddy, State.startWork_besideFpsm, State.setFpsm_besideFpsm]

theorem State.die_of_besideFpsm {t : State} (h : t.besideFpsm = s.besideFpsm) (d : DieId) : t.die d = s.die d := by
  match d with
  | 0 => exact (congrArg State.q0 h : t.besideFpsm.q0 = s.besideFpsm.q0)
  | 1 => exact (congrArg State.q1 h : t.besideFpsm.q1 = s.besideFpsm.q1)
  | 2 => exact (congrArg State.q2 h : t.besideFpsm.q2 = s.besideFpsm.q2)
  | 3 => exact (congrArg State.q3 h : t.besideFpsm.q3 = s.besideFpsm.q3)

theorem State.bay_of_besideFpsm {t : State} (h : t.besideFpsm = s.besideFpsm) (c : BayId) : t.bay c = s.bay c :=
  (congrArg (fun u : State => u.bay c) h : t.besideFpsm.bay c = s.besideFpsm.bay c)

/-- Whether the tray takes a caddy is read off its identity, the power and the EEPROM. -/
theorem State.refuses_of_besideFpsm {t : State} (h : t.besideFpsm = s.besideFpsm) (c : BayId) (e : List Byte) :
    t.refuses c e = s.refuses c e :=
  (congrArg (fun u : State => u.refuses c e) h : t.besideFpsm.refuses c e = s.besideFpsm.refuses c e)

/-- The 32 frames that read the EEPROM of a caddy take their turn (R161, R512). -/
def State.askEeprom (s : State) (c : BayId) : State :=
  (List.range 32).foldl (fun (t : State) i => t.askCaddy { bay := c, addr := BitVec.ofNat 16 (64 * i), len := 64 }) s

theorem State.askEeprom_besideFpsm : (s.askEeprom c).besideFpsm = s.besideFpsm :=
  List.foldlRecOn (motive := fun t : State => t.besideFpsm = s.besideFpsm) _ _ rfl fun _ h _ _ => (State.askCaddy_besideFpsm _).trans h

end Sys2Proof.Machine
end

section
/-! SUPPORT. What each command of a caddy bay does, one rule for each case of chapters 04, 14 and 17. -/

namespace Sys2Proof.Machine
variable {s : State} {c : BayId}

/-! ### Insertion -/

theorem exec_caddyPresence : exec (.caddyPresence c) s = .next (if (s.bay c).state = .empty then
    (s.fresh.modBay c fun _ => { ({} : Bay) with state := .domainA }).planPower else s.fresh) := by
  show execCaddyPresence c s = _
  have hb : s.fresh.bay c = s.bay c := rfl
  simp [execCaddyPresence, hb]

/-- The bay once the EEPROM of its caddy has been read, with the cause `n` of its refusal (R161, R162). -/
abbrev State.eepromRead (s : State) (c : BayId) (n : Byte) (e : List Byte) : State :=
  (s.fresh.askEeprom c).modBay c fun b =>
    { b with state := if n = 0 then .active else .refused, cause := n, eeprom := e, taken := n = 0 }

theorem exec_caddyIdRead (e : List Byte) (hb : (s.bay c).state = .domainA) (hl : (s.bay c).lever = false) (ha : s.domainA c = true) :
    let n := s.refuses c e
    let t := s.eepromRead c n e
    let named := if n = 1 then t else t.raiseBay 0x0390 c 0 [e.getD 6 0]
    exec (.caddyIdRead c e) s = .next (if n = 0 then named else named.raiseBay 0x0391 c n []).planPower := by
  intro n t named
  show execCaddyIdRead c e s = _
  unfold execCaddyIdRead
  extract_lets u b asked cause read noted
  have hskip : (b.state != .domainA || b.lever || !u.domainA c) = false := by
    rw [show b = s.bay c from rfl, hb, hl, show u.domainA c = s.domainA c from rfl, ha]
    rfl
  have hcause : cause = n := State.refuses_of_besideFpsm (State.askEeprom_besideFpsm (s := u)) c e
  rw [hskip]
  unfold named t State.eepromRead
  rw [← hcause]
  rfl

theorem exec_caddyDomainBGood : exec (.caddyDomainBGood c) s =
    .next (if (s.bay c).taken = true ∧ s.pow.domains.getLsbD (113 + 2 * c.val) = true then
      (s.fresh.modBay c fun b => { b with domB := true }).planPower else s.fresh) := by
  show execCaddyDomainBGood c s = _
  have hb : s.fresh.bay c = s.bay c := rfl
  simp [execCaddyDomainBGood, hb]

/-! ### Removal -/

theorem exec_caddyLeverOpen (hb : (s.bay c).state ≠ .empty) (hl : (s.bay c).lever = false) : exec (.caddyLeverOpen c) s =
    .next (((s.fresh.modBay c fun b => { b with state := .leaving, lever := true }).markBay c true).raiseBay 0x0392 c 0 []) := by
  show execCaddyLeverOpen c s = _
  have hb' : s.fresh.bay c = s.bay c := rfl
  simp [execCaddyLeverOpen, hb', hb, hl]

/-- The ports of the bay that hold nothing to send have failed, or all of them (R164). -/
def State.leftPorts (s : State) (c : BayId) (all : Bool) : State :=
  (bayPorts c).foldl (fun (t : State) p => if all || (t.die (bayDie c)).emptied p then t.failLink (bayDie c) p 5 else t) s

theorem State.leftPorts_kept (all : Bool) : (s.leftPorts c all).pow = s.pow ∧ (s.leftPorts c all).bays = s.bays :=
  State.failLinks_kept (fun t p => all || (t.die (bayDie c)).emptied p) _

theorem State.leftPorts_down : ∀ p ∈ bayPorts c, (((s.leftPorts c true).die (bayDie c)).port p).up = false :=
  State.failLinks_down (bayPorts c) s

section Leaving
variable (all : Bool) (hb : (s.bay c).state = .leaving)
include hb

theorem exec_caddyLeavingDone_up
    (hup : ∃ p ∈ bayPorts c, (((s.fresh.leftPorts c all).die (bayDie c)).port p).up = true) :
    exec (.caddyLeavingDone c all) s = .next (s.fresh.leftPorts c all) := by
  show execCaddyLeavingDone c all s = _
  unfold execCaddyLeavingDone
  extract_lets u d t off
  have hany : ((bayPorts c).any fun p => ((t.die d).port p).up) = true := List.any_eq_true.2 hup
  rw [hany, show u.bay c = s.bay c from rfl, hb]
  rfl

theorem exec_caddyLeavingDone_down
    (hdown : ∀ p ∈ bayPorts c, (((s.fresh.leftPorts c all).die (bayDie c)).port p).up = false) :
    let off := ((s.fresh.leftPorts c all).modBay c fun b => { b with taken := false }).planPower
    exec (.caddyLeavingDone c all) s =
      .next (if s.pow.domains.getLsbD (113 + 2 * c.val) then off else off.modBay c fun b => { b with state := .readyToRemove }) := by
  intro off
  show execCaddyLeavingDone c all s = _
  unfold execCaddyLeavingDone
  extract_lets u d t off'
  have hany : ((bayPorts c).any fun p => ((t.die d).port p).up) = false := by
    rw [List.any_eq_false]
    exact fun p hp => Bool.eq_false_iff.1 (hdown p hp)
  obtain ⟨hpow, hbays⟩ := State.leftPorts_kept (s := u) (c := c) all
  have hoff : off'.pow.domains = s.pow.domains := (congrArg Power.domains hpow : t.pow.domains = u.pow.domains)
  have hbay : off'.bay c = { s.bay c with taken := false } := by
    rw [State.planPower_bay, State.bay_modBay, show t.bay c = s.bay c from State.bay_of_bays hbays]
  have hreleased : off'.modBay c Bay.released = off'.modBay c fun b => { b with state := .readyToRemove } :=
    State.modBay_congr (by simp [Bay.released, hbay, hb])
  rw [hany, show u.bay c = s.bay c from rfl, hb, hoff, hreleased]
  rfl

end Leaving

theorem exec_caddyWithdrawn (hb : (s.bay c).state ≠ .empty) :
    let early := (s.bay c).state != .readyToRemove
    let t := if early then (bayPorts c).foldl (fun (t : State) p => t.failLink (bayDie c) p 5) s.fresh else s.fresh
    let u := ((t.modBay c fun _ => {}).markBay c false).planPower
    exec (.caddyWithdrawn c) s = .next (if early then u.raiseBay 0x0393 c 0 [] else u) := by
  intro early t u
  show execCaddyWithdrawn c s = _
  have hb' : s.fresh.bay c = s.bay c := rfl
  simp [execCaddyWithdrawn, State.bayEach, hb', hb, early, t, u]

theorem exec_caddyLeverClose (hb : (s.bay c).state ≠ .empty) (hl : (s.bay c).lever = true) :
    exec (.caddyLeverClose c) s = .next ((s.fresh.modBay c fun b => { b.again with lever := false }).markBay c false) := by
  show execCaddyLeverClose c s = _
  have hb' : s.fresh.bay c = s.bay c := rfl
  simp [execCaddyLeverClose, hb', hb, hl]

/-! ### Temperature samples -/

/-- The frame that reads a temperature sample takes its turn (R512, R515). -/
abbrev State.askTemp (s : State) (c : BayId) : State := s.fresh.askCaddy { bay := c, addr := 0x1000, len := 3 }

/-- The bay after a valid sample of a caddy whose EEPROM is sound (R604, R610). -/
abbrev Bay.sampled (b : Bay) (temp : BitVec 16) : Bay :=
  let warn : Int := 10 * (b.eeprom.getD 48 255).toNat
  let crit : Int := 10 * (b.eeprom.getD 49 255).toNat
  let cool := if temp.toInt ≤ warn - 50 then b.cool + 1 else 0
  { b with temp := temp, cool := cool, warm := holdCond (decide (warn ≤ temp.toInt)) b.warm cool,
           hot := holdCond (decide (crit ≤ temp.toInt)) b.hot cool }

section Sample
variable (temp : BitVec 16) {st : Byte} (hb : (s.bay c).state ≠ .empty) (ha : s.domainA c = true)
include hb ha

theorem exec_caddyTempSample_invalid (hst : bit st 7 = true) : exec (.caddyTempSample c temp st) s = .next (s.askTemp c) := by
  show execCaddyTempSample c temp st s = _
  have hb' : s.fresh.bay c = s.bay c := rfl
  have ha' : s.fresh.domainA c = true := ha
  have hst' : st[7] = true := hst
  simp [execCaddyTempSample, State.askTemp, hb', hb, ha', hst']

variable (hst : bit st 7 = false)
include hst

theorem exec_caddyTempSample_unread (he : (s.bay c).eeprom = [] ∨ (s.bay c).cause = 1#8) :
    exec (.caddyTempSample c temp st) s = .next ((s.askTemp c).modBay c fun b => { b with temp := temp }) := by
  show execCaddyTempSample c temp st s = _
  have hb' : s.fresh.bay c = s.bay c := rfl
  have ha' : s.fresh.domainA c = true := ha
  have hst' : st[7] = false := hst
  simp [execCaddyTempSample, State.askTemp, hb', hb, ha', hst', he]

theorem exec_caddyTempSample_read (he : (s.bay c).eeprom ≠ []) (hc : (s.bay c).cause ≠ 1#8) :
    let b := s.bay c
    let k := b.sampled temp
    let t := (s.askTemp c).modBay c fun _ => k
    let u := (bayPorts c).foldl (fun (t : State) p => t.failLink (bayDie c) p 1) t
    exec (.caddyTempSample c temp st) s =
      .next (if k.critical && !b.critical then u.planPower else if b.critical && !k.critical then t.planPower else t) := by
  intro b k t u
  show execCaddyTempSample c temp st s = _
  unfold execCaddyTempSample
  extract_lets v d b' asked warn crit x cool read
  have hask : asked.bay c = b := State.bay_of_besideFpsm (State.askCaddy_besideFpsm _) c
  have hread : read = t := State.modBay_congr (by rw [hask]; rfl)
  have hk : (read.bay c).critical = k.critical := by rw [hread, State.bay_modBay]
  have hskip : (b'.state == .empty || !v.domainA c) = false := by
    rw [show b' = s.bay c from rfl, show v.domainA c = s.domainA c from rfl, ha]
    simp [hb]
  have hsound : (b'.eeprom.isEmpty || decide (b'.cause = 1)) = false := by
    rw [show b' = s.bay c from rfl]
    simp [he, hc]
  rw [hskip, hst, hsound, hk, hread]
  rfl

end Sample

end Sys2Proof.Machine
end

section
/-! The caddies (O48). -/

namespace Sys2Proof.Machine

/-- Settles O48: each clause is the rule of its command; the marks are read off `State.markBay` and the ports that are down off the
failures of all ports of the bay. The check without an identity and the held temperature conditions (log entry 83), domain B over a
lever close (log entry 119) and the frames queued while their values are taken at once (log entry 133) are the model's choices. -/
theorem caddiesComplete : Obligations.CaddiesComplete := by
  unfold Obligations.CaddiesComplete
  intro s c b d x down marked
  have hmarked (m : Bool) {t : State} (ht : ∀ e, t.die e = s.die e) : marked (t.markBay c m) m := by
    refine ⟨fun p => ?_, fun e he => (State.markBay_die_ne m he).trans (ht e)⟩
    rw [State.markBay_port, ht]
  refine ⟨fun hb => ?_, fun hb => ?_, fun e hb hl ha => ?read, fun ht hp => ?_, fun h => ?_, fun hb hl => ?lever, fun up hb => ?leaving,
    fun hb => ?withdrawn, fun hl hb => ?close, fun temp st hb ha => ?sample⟩
  · exact exec_caddyPresence.trans (by rw [if_pos hb])
  · exact exec_caddyPresence.trans (by rw [if_neg hb])
  case read =>
    intro asked n t
    have hexec := exec_caddyIdRead e hb hl ha
    have hread {st : CaddyState} (hst : (if n = 0 then .active else .refused) = st) : s.eepromRead c n e = t st := by
      rw [← hst]
      rfl
    refine ⟨fun hn => hexec.trans ?_, fun hn => hexec.trans ?_, fun hn => hexec.trans ?_⟩
    · have h1 : n ≠ 1 := by rw [hn]; decide
      rw [if_pos hn, if_neg h1, hread (if_pos hn)]
    · have h0 : n ≠ 0 := by rw [hn]; decide
      rw [if_neg h0, if_pos hn, hread (if_neg h0), show s.refuses c e = 1 from hn]
    · have h0 : n ≠ 0 := fun h => absurd hn (by rw [h]; decide)
      have h1 : n ≠ 1 := fun h => absurd hn (by rw [h]; decide)
      rw [if_neg h0, if_neg h1, hread (if_neg h0)]
  · exact exec_caddyDomainBGood.trans (by rw [if_pos ⟨ht, hp⟩])
  · have hno : ¬((s.bay c).taken = true ∧ s.pow.domains.getLsbD (113 + 2 * c.val) = true) := by
      rintro ⟨ht, hp⟩
      rcases h with h | h
      · exact Bool.false_ne_true (h.symm.trans ht)
      · exact Bool.false_ne_true (h.symm.trans hp)
    exact exec_caddyDomainBGood.trans (congrArg _ (if_neg hno))
  case lever =>
    refine ⟨_, exec_caddyLeverOpen hb hl, ?_, hmarked true fun e => by simp⟩
    rw [State.markBay_bay, State.bay_modBay]
    rfl
  case leaving =>
    intro t off
    refine ⟨fun hup => exec_caddyLeavingDone_up up hb hup, fun hdown => exec_caddyLeavingDone_down up hb hdown, ?_⟩
    rintro rfl
    exact State.leftPorts_down
  case withdrawn =>
    intro early t
    refine ⟨_, exec_caddyWithdrawn hb, rfl, ?_, fun hearly p hp => ?_, fun hearly => ?_⟩
    · rw [State.planPower_bay, State.markBay_bay, State.bay_modBay]
    · rw [State.planPower_die, State.markBay_up, State.modBay_die, if_pos hearly]
      exact State.failLinks_down (bayPorts c) s.fresh p hp
    · have ht : t = s.fresh := if_neg (Bool.eq_false_iff.1 hearly)
      have hdie (e : DieId) : (t.modBay c fun _ => {}).die e = s.die e := by rw [State.modBay_die, ht, State.fresh_die]
      obtain ⟨hports, hothers⟩ := hmarked false hdie
      exact ⟨fun p => (congrArg (·.port p) (State.planPower_die d)).trans (hports p), fun e he => (State.planPower_die e).trans (hothers e he)⟩
  case close =>
    refine ⟨_, exec_caddyLeverClose hb hl, hmarked false fun e => by simp, ?_⟩
    rw [State.markBay_bay, State.bay_modBay]
    rfl
  case sample =>
    intro asked
    refine ⟨fun hst => exec_caddyTempSample_invalid temp hb ha hst, fun hst => ⟨fun he => exec_caddyTempSample_unread temp hb ha hst he,
      fun he hc => ⟨exec_caddyTempSample_read temp hb ha hst he hc, State.failLinks_down (bayPorts c) _⟩⟩⟩

end Sys2Proof.Machine
end

section
/-! SUPPORT. XON of a port, the reservations that a grant adds, and what flow control leaves alone. -/

namespace Sys2Proof.Machine

/-! ### XON of one port -/

theorem bit_setBit {n : Nat} (w : BitVec n) {i : Nat} (hi : i < n) (b : Bool) (j : Nat) :
    bit (setBit w i b) j = if j = i then b else bit w j := by
  have hone : (1#n <<< i).getLsbD j = decide (j = i) := by
    rw [← BitVec.twoPow_eq, BitVec.getLsbD_twoPow]
    simp [hi, eq_comm]
  cases b with
  | true =>
    show (w ||| 1#n <<< i).getLsbD j = _
    rw [BitVec.getLsbD_or, hone]
    by_cases h : j = i <;> simp [h]
  | false =>
    show (w &&& ~~~(1#n <<< i)).getLsbD j = _
    rw [BitVec.getLsbD_and, BitVec.getLsbD_not, hone]
    by_cases h : j = i
    · simp [h]
    · simpa [h] using BitVec.lt_of_getLsbD

theorem Port.setXon_eq (q : Port) {key : Nat} (hkey : key < 128) (on : Bool) :
    q.setXon key on = { q with rxXon := setBit q.rxXon key on } := if_neg (Nat.ne_of_lt hkey)

theorem Port.holdsXon_setXon (q : Port) {key : Nat} (hkey : key < 128) (on : Bool) (k : Nat) :
    (q.setXon key on).holdsXon k = if k = key then on else q.holdsXon k := by
  rw [q.setXon_eq hkey]
  unfold Port.holdsXon
  by_cases hk : k = 128
  · simp [hk, (Nat.ne_of_lt hkey).symm]
  · simp only [hk, if_false]
    exact bit_setBit _ hkey on k

/-- The state key of a partition and virtual channel is not that of the pool. -/
theorem stateKey_lt (part : BitVec 4) (vc : BitVec 3) : 8 * part.toNat + vc.toNat < 128 := by omega

/-! ### Reservations -/

/-- A table that is written keeps its keys. -/
theorem Map.keys_put {α : Type} (m : Map α) (k : Nat) (a : α) :
    (List.map Prod.fst m).Sublist (List.map Prod.fst (Map.put m k a)) := by
  induction m with
  | nil => exact List.nil_sublist _
  | cons e r ih =>
    obtain ⟨j, b⟩ := e
    unfold Map.put
    split
    · exact List.sublist_cons_self ..
    · split
      case isTrue h => simp [h]
      case isFalse => exact ih.cons_cons j

variable {x y : Die}

theorem Die.resSum_eq (key : Nat) :
    x.resSum key = (((x.ports.map Prod.fst).filter (· < 71)).map (x.resOf key)).sum := by
  rw [List.filter_map, List.map_map, List.sum_eq_foldl, List.foldl_map]
  rfl

/-- A sum rises with its terms and with the list that it runs over. -/
theorem sum_map_le_of_sublist {f g : Nat → Nat} (hfg : ∀ a, f a ≤ g a) {l l' : List Nat} (h : l.Sublist l') :
    (l.map f).sum ≤ (l'.map g).sum := by
  induction h with
  | slnil => exact Nat.le_refl _
  | cons a _ ih =>
    rw [List.map_cons, List.sum_cons]
    exact Nat.le_trans ih (Nat.le_add_left ..)
  | cons_cons a _ ih =>
    rw [List.map_cons, List.map_cons, List.sum_cons, List.sum_cons]
    exact Nat.add_le_add (hfg a) ih

/-- H rises with the ports of a die and with each port's reservation. -/
theorem Die.resSum_le {key : Nat} (hports : (x.ports.map Prod.fst).Sublist (y.ports.map Prod.fst))
    (hres : ∀ p, x.resOf key p ≤ y.resOf key p) : x.resSum key ≤ y.resSum key := by
  rw [Die.resSum_eq, Die.resSum_eq]
  exact sum_map_le_of_sublist hres (hports.filter _)

/-- A port reserves at most its skid allowance. -/
theorem Die.resOf_le_skid (key p : Nat) : x.resOf key p ≤ x.skid p := by
  unfold Die.resOf
  extract_lets q holds
  split
  · exact Nat.le_refl _
  · split
    · split
      · exact Nat.sub_le ..
      · exact Nat.zero_le _
    · exact Nat.zero_le _

/-- What a pass of R235 leaves of a die: all but its ports, where the next pass begins and the shortfalls of R238 already raised. -/
def Die.besideXon (x : Die) : Die := { x with ports := [], xonNext := [], quotaShort := [] }

/-- What does not read the parts that a pass writes is the same for two dies that agree beside them. -/
theorem Die.eq_of_besideXon {α : Type} (h : y.besideXon = x.besideXon) (f : Die → α) (hf : ∀ z : Die, f z.besideXon = f z) :
    f y = f x := by
  rw [← hf y, h, hf]

/-- F falls as reservations rise, on the same packets and tables. -/
theorem Die.roomOf_le (h : y.besideXon = x.besideXon) (hres : ∀ k, x.resSum k ≤ y.resSum k) (key : Nat) :
    y.roomOf key ≤ x.roomOf key := by
  have hquota (p vc : Nat) : y.view.quota p vc = x.view.quota p vc := Die.eq_of_besideXon h (·.view.quota p vc) fun _ => rfl
  have husage (p vc : Nat) : y.usage p vc = x.usage p vc := Die.eq_of_besideXon h (·.usage p vc) fun _ => rfl
  have hpool : y.segUsage 47 = x.segUsage 47 := Die.eq_of_besideXon h (·.segUsage 47) fun _ => rfl
  have hfree (p : Nat) : y.physFree p = x.physFree p := Die.eq_of_besideXon h (·.physFree p) fun _ => rfl
  have hothers (p vc : Nat) :
      (List.range 8).foldl (fun (n : Int) v => if v = vc then n else n + x.resSum (8 * p + v)) 0 ≤
        (List.range 8).foldl (fun (n : Int) v => if v = vc then n else n + y.resSum (8 * p + v)) 0 := by
    refine List.foldl_rel (r := fun a b : Int => a ≤ b) (Int.le_refl 0) fun v _ a b hab => ?_
    have := hres (8 * p + v)
    split <;> omega
  by_cases hk : key = 128
  · simp [Die.roomOf, Die.roomsOf, hk, hpool]
  · have := hothers (key / 8) (key % 8)
    simp only [Die.roomOf, Die.roomsOf, hk, if_false, Die.freeRooms, hquota, husage, hfree]
    omega

/-! ### A grant on a die -/

/-- A port that is granted XON in a tick (R235). -/
def Port.giveXon (q : Port) (key : Nat) (now : Tick) : Port :=
  { (q.setXon key true) with xoffs := Map.rem q.xoffs key, lastRx := Map.put q.lastRx key now }

theorem Port.holdsXon_giveXon (q : Port) {key : Nat} (hkey : key < 128) (now : Tick) (k : Nat) :
    (q.giveXon key now).holdsXon k = if k = key then true else q.holdsXon k := q.holdsXon_setXon hkey true k

theorem Port.giveXon_kept (q : Port) {key : Nat} (hkey : key < 128) (now : Tick) :
    let r := q.giveXon key now
    r.lanes = q.lanes ∧ r.fullRate = q.fullRate ∧ r.sw = q.sw ∧ r.oldSkid = q.oldSkid ∧ r.delay = q.delay ∧
      r.buckets = q.buckets := by
  rw [Port.giveXon, Port.setXon_eq q hkey]
  exact ⟨rfl, rfl, rfl, rfl, rfl, rfl⟩

/-- A die on which a port is granted XON (R235). -/
def Die.giveXon (x : Die) (key p : Nat) : Die :=
  { (x.modPort p fun q => q.giveXon key x.now) with xonNext := Map.put x.xonNext key p }

/-- The die has room to grant XON to a port: F - H is at least S_p + 258 (R235). -/
def Die.roomFor (x : Die) (key p : Nat) : Prop := (x.resSum key : Int) + (x.skid p : Int) + 258 ≤ x.roomOf key

section Give
variable {key : Nat} (p : Nat)

theorem Die.giveXon_besideXon : (x.giveXon key p).besideXon = x.besideXon := rfl

theorem Die.giveXon_port_self : (x.giveXon key p).port p = (x.port p).giveXon key x.now :=
  Die.port_modPort x p (·.giveXon key x.now)

theorem Die.giveXon_port_ne {r : Nat} (h : r ≠ p) : (x.giveXon key p).port r = x.port r :=
  Die.port_modPort_ne x (·.giveXon key x.now) h

variable (hkey : key < 128)
include hkey

theorem Die.giveXon_holdsXon (r k : Nat) :
    ((x.giveXon key p).port r).holdsXon k = if r = p ∧ k = key then true else (x.port r).holdsXon k := by
  by_cases hr : r = p
  · subst hr
    simp [Die.giveXon_port_self, Port.holdsXon_giveXon _ hkey]
  · simp [Die.giveXon_port_ne p hr, hr]

/-- A grant leaves what the skid allowance and the token buckets of each port are read from. -/
theorem Die.giveXon_kept (r : Nat) :
    let q := (x.giveXon key p).port r
    q.lanes = (x.port r).lanes ∧ q.fullRate = (x.port r).fullRate ∧ q.sw = (x.port r).sw ∧ q.oldSkid = (x.port r).oldSkid ∧
      q.delay = (x.port r).delay ∧ q.buckets = (x.port r).buckets := by
  by_cases hr : r = p
  · rw [hr, Die.giveXon_port_self]
    exact Port.giveXon_kept _ hkey _
  · simp [Die.giveXon_port_ne p hr]

theorem Die.giveXon_skid (r : Nat) : (x.giveXon key p).skid r = x.skid r := by
  obtain ⟨hlanes, hrate, hsw, hold, hdelay, -⟩ := Die.giveXon_kept (x := x) p hkey r
  simp only [Die.skid, skidAt, Port.skidTime, Port.width, hlanes, hrate, hsw, hold, hdelay]
  rfl

theorem Die.giveXon_inSkid (r : Nat) (o : XoffSent) : (x.giveXon key p).inSkid r o = x.inSkid r o := by
  obtain ⟨-, -, -, -, hdelay, -⟩ := Die.giveXon_kept (x := x) p hkey r
  simp only [Die.inSkid, Port.skidTime, hdelay]
  rfl

theorem Die.giveXon_resOf_self : (x.giveXon key p).resOf key p = x.skid p := by
  have hholds := Die.giveXon_holdsXon (x := x) p hkey p key
  simp only [and_self, if_true] at hholds
  rw [← Die.giveXon_skid p hkey]
  exact if_pos hholds

theorem Die.giveXon_resOf_ne {r k : Nat} (h : ¬(r = p ∧ k = key)) : (x.giveXon key p).resOf k r = x.resOf k r := by
  have hholds := Die.giveXon_holdsXon (x := x) p hkey r k
  rw [if_neg h] at hholds
  have hxoffs : Map.look ((x.giveXon key p).port r).xoffs k = Map.look (x.port r).xoffs k := by
    by_cases hr : r = p
    · rw [hr, Die.giveXon_port_self]
      exact Map.look_rem_ne _ fun hk => h ⟨hr, hk⟩
    · rw [Die.giveXon_port_ne p hr]
  unfold Port.holdsXon at hholds
  unfold Die.resOf
  simp only [hholds, hxoffs, Die.giveXon_skid p hkey, Die.giveXon_inSkid p hkey]

/-- A grant takes no reservation away: the port reserves its whole skid allowance. -/
theorem Die.resSum_le_giveXon (k : Nat) : x.resSum k ≤ (x.giveXon key p).resSum k := by
  refine Die.resSum_le (Map.keys_put ..) fun r => ?_
  by_cases h : r = p ∧ k = key
  · obtain ⟨rfl, rfl⟩ := h
    rw [Die.giveXon_resOf_self r hkey]
    exact Die.resOf_le_skid k r
  · exact Nat.le_of_eq (Die.giveXon_resOf_ne p hkey h).symm

/-- Room that is left after a grant was there before it. -/
theorem Die.roomFor_of_giveXon {r : Nat} (h : (x.giveXon key p).roomFor key r) : x.roomFor key r := by
  have hsum := Die.resSum_le_giveXon (x := x) p hkey key
  have hroom := Die.roomOf_le (Die.giveXon_besideXon (x := x) p) (Die.resSum_le_giveXon p hkey) key
  unfold Die.roomFor at h ⊢
  rw [Die.giveXon_skid p hkey] at h
  omega

end Give

/-! ### What flow control leaves of the tray -/

/-- `t` is `s` but for the ports of die `d`, what a pass of R235 writes beside them, and what events write. -/
structure State.BesideXon (d : DieId) (s t : State) : Prop where
  die : (t.die d).besideXon = (s.die d).besideXon
  others : ∀ e, e ≠ d → t.die e = s.die e
  boot : t.boot = s.boot
  tok : t.tok = s.tok
  fuse : t.fuse = s.fuse

variable {s t u : State} {d : DieId}

theorem State.BesideXon.refl (s : State) : s.BesideXon d s := ⟨rfl, fun _ _ => rfl, rfl, rfl, rfl⟩

theorem State.BesideXon.trans (h : s.BesideXon d t) (k : t.BesideXon d u) : s.BesideXon d u :=
  ⟨k.die.trans h.die, fun e he => (k.others e he).trans (h.others e he), k.boot.trans h.boot, k.tok.trans h.tok, k.fuse.trans h.fuse⟩

theorem State.BesideXon.of_calm (h : t.calm = s.calm) : s.BesideXon d t :=
  ⟨by rw [State.die_of_calm h], fun e _ => State.die_of_calm h e, (congrArg State.boot h : t.calm.boot = s.calm.boot),
    State.tok_of_calm h, State.fuse_of_calm h⟩

theorem State.besideXon_fresh : s.BesideXon d s.fresh := .of_calm rfl

theorem State.BesideXon.modDie {f : Die → Die} (hf : (f (s.die d)).besideXon = (s.die d).besideXon) : s.BesideXon d (s.modDie d f) :=
  ⟨by rw [State.die_modDie, hf], fun _ he => State.die_modDie_ne s f he, by simp, by simp, by simp⟩

theorem State.BesideXon.foldl {α : Type} {f : State → α → State} (hf : ∀ (t : State) a, t.BesideXon d (f t a)) (l : List α)
    (s : State) : s.BesideXon d (l.foldl f s) :=
  List.foldlRecOn (motive := fun t => s.BesideXon d t) _ _ (.refl s) fun t h a _ => h.trans (hf t a)

theorem State.BesideXon.tab (h : s.BesideXon d t) : (t.die d).tab = (s.die d).tab :=
  Die.eq_of_besideXon h.die (·.tab) fun _ => rfl
theorem State.BesideXon.held (h : s.BesideXon d t) : (t.die d).held = (s.die d).held :=
  Die.eq_of_besideXon h.die (·.held) fun _ => rfl
theorem State.BesideXon.throttled (h : s.BesideXon d t) : (t.die d).throttled = (s.die d).throttled :=
  Die.eq_of_besideXon h.die (·.throttled) fun _ => rfl
theorem State.BesideXon.window (h : s.BesideXon d t) : (t.die d).window = (s.die d).window :=
  Die.eq_of_besideXon h.die (·.window) fun _ => rfl

/-! ### FLOW words and XOFF -/

@[simp] theorem State.sendFlow_die (p key : Nat) (e : DieId) : (s.sendFlow d p key).die e = s.die e := by simp [State.sendFlow]

theorem State.sendFlow_out (p key : Nat) :
    let e := ((s.sendFlow d p key).die d).entryOf p (key / 8)
    (s.sendFlow d p key).out = s.out ++ [.word d p (flowWordOf e e e e), .word d p (flowWordOf e e e e)] := by
  simp [State.sendFlow]

theorem State.besideXon_sendFlow (p key : Nat) : s.BesideXon d (s.sendFlow d p key) := .of_calm rfl

theorem State.besideXon_sendXoff (p key : Nat) : s.BesideXon d (s.sendXoff d p key) :=
  (State.BesideXon.modDie rfl).trans (State.besideXon_sendFlow p key)

theorem State.besideXon_xoffWithheld : s.BesideXon d (s.xoffWithheld d) := by
  refine .foldl (fun t p => .foldl (fun u k => ?_) _ t) _ s
  split
  · exact State.besideXon_sendXoff p k
  · exact .refl u

theorem State.sendXoff_out (p key : Nat) :
    let e := ((s.sendXoff d p key).die d).entryOf p (key / 8)
    (s.sendXoff d p key).out = s.out ++ [.word d p (flowWordOf e e e e), .word d p (flowWordOf e e e e)] := by
  simp [State.sendXoff, State.sendFlow]

/-- A port that is sent XOFF, with the record of it (R234). -/
def Port.takeXon (q : Port) (key : Nat) (o : XoffSent) : Port :=
  { (q.setXon key false) with xoffs := Map.put q.xoffs key o, lastRx := Map.rem q.lastRx key }

theorem Port.holdsXon_takeXon (q : Port) {key : Nat} (hkey : key < 128) (o : XoffSent) (k : Nat) :
    (q.takeXon key o).holdsXon k = if k = key then false else q.holdsXon k := q.holdsXon_setXon hkey false k

theorem State.sendXoff_port_self (p key : Nat) : ((s.sendXoff d p key).die d).port p =
    ((s.die d).port p).takeXon key { tick := (s.die d).now, at_ := (s.die d).clock, arrived := 0 } := by
  simp [State.sendXoff, Port.takeXon]

theorem State.sendXoff_holdsXon (p : Nat) {key : Nat} (hkey : key < 128) (r k : Nat) :
    (((s.sendXoff d p key).die d).port r).holdsXon k = if r = p ∧ k = key then false else ((s.die d).port r).holdsXon k := by
  by_cases hr : r = p
  · subst hr
    simp [State.sendXoff_port_self, Port.holdsXon_takeXon _ hkey]
  · simp [State.sendXoff, Die.port_modPort_ne _ _ hr, hr]

end Sys2Proof.Machine
end

section
/-! SUPPORT. The check of R238 and the pass of R235 that make up XON_GRANT. -/

namespace Sys2Proof.Machine
variable {s : State} {d : DieId}

/-! ### Shortfalls of a quota -/

/-- Checking the quota for a port writes the shortfalls already raised, and may raise an event (R238). -/
theorem State.checkQuota_spec (part vc p : Nat) : s.BesideXon d (s.checkQuota d part vc p) ∧
    ∃ m, (s.checkQuota d part vc p).die d = { s.die d with quotaShort := m } := by
  unfold State.checkQuota
  extract_lets x k q n short
  split
  · exact ⟨.refl s, _, rfl⟩
  · split
    · split
      · exact ⟨.refl s, _, rfl⟩
      · exact ⟨(State.BesideXon.modDie rfl).trans (.of_calm (State.raiseDie_calm ..)), _,
          (State.die_of_calm (State.raiseDie_calm ..) d).trans (State.die_modDie ..)⟩
    · exact ⟨.modDie rfl, _, State.die_modDie ..⟩

/-! ### Holders of R635 -/

/-- Whether XON is withheld is read off the identity, the die's tables, and the port's skid allowance and token buckets. -/
theorem State.withholds_congr {t : State} {p key : Nat} (hkey : key < 128) (h : s.BesideXon d t)
    (hskid : (t.die d).skid p = (s.die d).skid p) (hbuckets : ((t.die d).port p).buckets = ((s.die d).port p).buckets) :
    t.withholds d p key = s.withholds d p key := by
  have hview : (t.die d).view = (s.die d).view := Die.eq_of_besideXon h.die (·.view) fun _ => rfl
  have hfull : (t.die d).full = (s.die d).full := Die.eq_of_besideXon h.die (·.full) fun _ => rfl
  have htick : (t.die d).tick = (s.die d).tick := Die.eq_of_besideXon h.die (·.tick) fun _ => rfl
  have hopen (b : Bucket) : (t.die d).bucketOpen b = (s.die d).bucketOpen b :=
    Die.eq_of_besideXon h.die (·.bucketOpen b) fun _ => rfl
  have hdown : t.isDown p = s.isDown p := by simp only [State.isDown, State.isLeaf, h.boot]
  unfold State.withholds
  simp only [Nat.ne_of_lt hkey, if_false, Die.quotaShortAt, hskid, hbuckets, hview, hfull, htick, hopen, hdown]

/-! ### A pass -/

/-- The state in which a port has been granted XON and been told so. -/
def State.grantOne (s : State) (d : DieId) (key p : Nat) : State := (s.modDie d fun x => x.giveXon key p).sendFlow d p key

theorem State.grantPass_cons (key p : Nat) (l : List Nat) : s.grantPass d key (p :: l) =
    if s.withholds d p key then s.grantPass d key l
    else if (s.die d).roomOf key < ((s.die d).resSum key : Int) + ((s.die d).skid p : Int) + 258 then
      s.modDie d fun x => { x with xonNext := Map.put x.xonNext key ((p + 127) % 128) }
    else (s.grantOne d key p).grantPass d key l := rfl

@[simp] theorem State.grantOne_die (key p : Nat) : (s.grantOne d key p).die d = (s.die d).giveXon key p := by
  simp [State.grantOne]

theorem State.besideXon_grantOne (key p : Nat) : s.BesideXon d (s.grantOne d key p) :=
  (State.BesideXon.modDie (Die.giveXon_besideXon p)).trans (State.besideXon_sendFlow p key)

theorem State.grantOne_out (key p : Nat) :
    let e := ((s.grantOne d key p).die d).entryOf p (key / 8)
    (s.grantOne d key p).out = s.out ++ [.word d p (flowWordOf e e e e), .word d p (flowWordOf e e e e)] := by
  have h := State.sendFlow_out (s := s.modDie d fun x => x.giveXon key p) (d := d) p key
  rwa [State.modDie_out] at h

/-- A grant to one port withholds XON from no other. -/
theorem State.grantOne_withholds {key : Nat} (hkey : key < 128) (p r : Nat) :
    (s.grantOne d key p).withholds d r key = s.withholds d r key := by
  refine State.withholds_congr hkey (State.besideXon_grantOne key p) ?_ ?_
  · rw [State.grantOne_die, Die.giveXon_skid p hkey]
  · obtain ⟨-, -, -, -, -, hbuckets⟩ := Die.giveXon_kept (x := s.die d) p hkey r
    rw [State.grantOne_die, hbuckets]

/-- `t` holds the XON of `s`, and more of it only for one state key, on ports of a list from which nothing withholds it and for which
there is room in `s`. -/
structure State.Grants (d : DieId) (key : Nat) (l : List Nat) (s t : State) : Prop where
  beside : s.BesideXon d t
  keeps : ∀ p k, ((s.die d).port p).holdsXon k = true → ((t.die d).port p).holdsXon k = true
  gives : ∀ p k, ((t.die d).port p).holdsXon k = true → ((s.die d).port p).holdsXon k = false →
    k = key ∧ p ∈ l ∧ s.withholds d p key = false ∧ (s.die d).roomFor key p

/-- A state with the same ports grants nothing. -/
theorem State.Grants.of_port_eq {t : State} {key : Nat} {l : List Nat} (h : s.BesideXon d t)
    (hport : ∀ p, (t.die d).port p = (s.die d).port p) : s.Grants d key l t where
  beside := h
  keeps p k hs := by rwa [hport]
  gives p k ht hs := by
    rw [hport, hs] at ht
    exact absurd ht Bool.false_ne_true

theorem State.Grants.skip {t : State} {key p : Nat} {l : List Nat} (h : s.Grants d key l t) : s.Grants d key (p :: l) t where
  beside := h.beside
  keeps := h.keeps
  gives r k ht hs := by
    obtain ⟨hk, hr, hrest⟩ := h.gives r k ht hs
    exact ⟨hk, List.mem_cons_of_mem p hr, hrest⟩

/-- A grant to a port with room, and further grants in the state that it leaves. -/
theorem State.Grants.grantOne {t : State} {key p : Nat} {l : List Nat} (hkey : key < 128) (hw : s.withholds d p key = false)
    (hroom : (s.die d).roomFor key p) (h : (s.grantOne d key p).Grants d key l t) : s.Grants d key (p :: l) t where
  beside := (State.besideXon_grantOne key p).trans h.beside
  keeps r k hs := by
    refine h.keeps r k ?_
    rw [State.grantOne_die, Die.giveXon_holdsXon p hkey, hs, ite_self]
  gives r k ht hs := by
    by_cases hrk : r = p ∧ k = key
    · obtain ⟨rfl, rfl⟩ := hrk
      exact ⟨rfl, List.mem_cons_self, hw, hroom⟩
    · have hs' : (((s.grantOne d key p).die d).port r).holdsXon k = false := by
        rw [State.grantOne_die, Die.giveXon_holdsXon p hkey, if_neg hrk, hs]
      obtain ⟨hk, hr, hw', hroom'⟩ := h.gives r k ht hs'
      rw [State.grantOne_withholds hkey] at hw'
      rw [State.grantOne_die] at hroom'
      exact ⟨hk, List.mem_cons_of_mem p hr, hw', Die.roomFor_of_giveXon p hkey hroom'⟩

theorem State.grantPass_grants {key : Nat} (hkey : key < 128) (l : List Nat) (s : State) : s.Grants d key l (s.grantPass d key l) := by
  induction l generalizing s with
  | nil => exact .of_port_eq (.refl s) fun _ => rfl
  | cons p l ih =>
    rw [State.grantPass_cons]
    split
    case isTrue => exact (ih s).skip
    case isFalse hw =>
      split
      case isTrue => exact .of_port_eq (.modDie rfl) fun _ => by rw [State.die_modDie]; rfl
      case isFalse hroom => exact .grantOne hkey (Bool.eq_false_iff.2 hw) (Int.not_lt.1 hroom) (ih _)

theorem State.grantPass_single {key p : Nat} (hw : s.withholds d p key = false) (hroom : (s.die d).roomFor key p) :
    s.grantPass d key [p] = s.grantOne d key p := by
  rw [State.grantPass_cons, hw, if_neg Bool.false_ne_true, if_neg (Int.not_lt.2 hroom)]
  rfl

/-! ### The order of a pass -/

/-- The wanting ports in the order of a pass (R235). -/
def Die.xonOrder (x : Die) (key : Nat) : List Nat :=
  match Map.look x.xonNext key with | some l => rotate (x.wanting key) l | none => x.wanting key

theorem State.grant_eq (key : Nat) : s.grant d key = s.grantPass d key ((s.die d).xonOrder key) := rfl

theorem Die.mem_wanting_of_mem_xonOrder {x : Die} {key p : Nat} (h : p ∈ x.xonOrder key) : p ∈ x.wanting key := by
  unfold Die.xonOrder at h
  split at h
  · rcases List.mem_append.1 h with h | h <;> exact (List.mem_filter.1 h).1
  · exact h

theorem Die.xonOrder_single {x : Die} {key p : Nat} (h : x.wanting key = [p]) : x.xonOrder key = [p] := by
  unfold Die.xonOrder
  rw [h]
  split
  case h_1 l _ =>
    rcases Nat.lt_or_ge l p with hl | hl
    · simp [rotate, hl]
    · simp [rotate, hl, Nat.not_lt.2 hl]
  case h_2 => rfl

/-! ### XON_GRANT -/

/-- The quotas checked for every port in service, as XON_GRANT does first. -/
def State.checkQuotas (s : State) (d : DieId) (part vc : Nat) : State :=
  (s.die d).servicePorts.foldl (fun (t : State) p => t.checkQuota d part vc p) s.fresh

section Quotas
variable (m n : Nat)

theorem State.besideXon_checkQuotas : s.BesideXon d (s.checkQuotas d m n) :=
  State.besideXon_fresh.trans
    (State.BesideXon.foldl (fun (t : State) p => (State.checkQuota_spec (s := t) m n p).1) (s.die d).servicePorts s.fresh)

theorem State.checkQuotas_die : ∃ l, (s.checkQuotas d m n).die d = { s.die d with quotaShort := l } := by
  refine List.foldlRecOn (motive := fun t : State => ∃ l, t.die d = { s.die d with quotaShort := l }) _ _ ⟨_, s.fresh_die d⟩
    fun t ⟨l, hl⟩ p _ => ?_
  obtain ⟨-, l', hl'⟩ := State.checkQuota_spec (s := t) (d := d) m n p
  exact ⟨l', by rw [hl', hl]⟩

/-- Nothing else that a pass reads is changed by the shortfalls already raised. -/
theorem State.eq_of_checkQuotas {α : Type} (f : Die → α) (hf : ∀ (z : Die) l, f { z with quotaShort := l } = f z) :
    f ((s.checkQuotas d m n).die d) = f (s.die d) := by
  obtain ⟨l, hl⟩ := State.checkQuotas_die (s := s) (d := d) m n
  rw [hl, hf]

theorem State.checkQuotas_withholds {key : Nat} (hkey : key < 128) (p : Nat) :
    (s.checkQuotas d m n).withholds d p key = s.withholds d p key :=
  State.withholds_congr hkey (State.besideXon_checkQuotas m n) (State.eq_of_checkQuotas m n (·.skid p) fun _ _ => rfl)
    (State.eq_of_checkQuotas m n (fun z => (z.port p).buckets) fun _ _ => rfl)

theorem State.checkQuotas_roomFor (key p : Nat) : ((s.checkQuotas d m n).die d).roomFor key p = (s.die d).roomFor key p :=
  State.eq_of_checkQuotas m n (·.roomFor key p) fun _ _ => rfl

theorem State.checkQuotas_port (p : Nat) : ((s.checkQuotas d m n).die d).port p = (s.die d).port p :=
  State.eq_of_checkQuotas m n (·.port p) fun _ _ => rfl

theorem State.checkQuotas_xonOrder (key : Nat) : ((s.checkQuotas d m n).die d).xonOrder key = (s.die d).xonOrder key :=
  State.eq_of_checkQuotas m n (·.xonOrder key) fun _ _ => rfl

variable {key : Nat} (hkey : key < 128)
include hkey

/-- The check of the quotas changes neither who wants XON nor what withholds it nor the room, so the pass after it grants what R235 allows
in the state before. -/
theorem State.checkQuotas_grants : s.Grants d key ((s.die d).wanting key) ((s.checkQuotas d m n).grant d key) := by
  have hpass := State.grantPass_grants (d := d) hkey ((s.die d).xonOrder key) (s.checkQuotas d m n)
  rw [State.grant_eq, State.checkQuotas_xonOrder]
  refine ⟨(State.besideXon_checkQuotas m n).trans hpass.beside, fun p k hs => hpass.keeps p k ?_, fun p k ht hs => ?_⟩
  · rwa [State.checkQuotas_port]
  · obtain ⟨hk, hp, hw, hroom⟩ := hpass.gives p k ht (by rwa [State.checkQuotas_port])
    rw [State.checkQuotas_withholds m n hkey] at hw
    rw [State.checkQuotas_roomFor] at hroom
    exact ⟨hk, Die.mem_wanting_of_mem_xonOrder hp, hw, hroom⟩

theorem State.checkQuotas_grant_single {p : Nat} (hone : (s.die d).wanting key = [p]) (hw : s.withholds d p key = false)
    (hroom : (s.die d).roomFor key p) : (s.checkQuotas d m n).grant d key = (s.checkQuotas d m n).grantOne d key p := by
  rw [State.grant_eq, State.checkQuotas_xonOrder, Die.xonOrder_single hone]
  rw [← State.checkQuotas_withholds m n hkey] at hw
  rw [← State.checkQuotas_roomFor m n] at hroom
  exact State.grantPass_single hw hroom

end Quotas

end Sys2Proof.Machine
end

section
/-! SUPPORT. What each flow control and congestion command of a die does, one rule for each case of chapter 06. -/

namespace Sys2Proof.Machine
variable {s : State} {d : DieId} {p : PortId} {part : BitVec 4} {vc : BitVec 3}

/-! ### XON -/

theorem exec_xonGrant (hon : (s.die d).on = true) : exec (.xonGrant d part vc) s =
    .next ((s.checkQuotas d part.toNat vc.toNat).grant d (8 * part.toNat + vc.toNat)) := by
  show execXonGrant d part vc s = _
  simp [execXonGrant, State.checkQuotas, hon]

theorem exec_xonIdleRevoke_busy {r : Tick} (hlast : Map.look ((s.die d).port p.val).lastRx (8 * part.toNat + vc.toNat) = some r)
    (hr : within (s.die d).now r 16 = true) : exec (.xonIdleRevoke d p part vc) s = .next s.fresh := by
  show execXonIdleRevoke d p part vc s = _
  simp [execXonIdleRevoke, hlast, hr]

theorem exec_xonIdleRevoke_idle (hon : (s.die d).on = true) {r : Tick}
    (hholds : ((s.die d).port p.val).holdsXon (8 * part.toNat + vc.toNat) = true)
    (hlast : Map.look ((s.die d).port p.val).lastRx (8 * part.toNat + vc.toNat) = some r)
    (hr : within (s.die d).now r 16 = false) :
    exec (.xonIdleRevoke d p part vc) s = .next (s.fresh.sendXoff d p.val (8 * part.toNat + vc.toNat)) := by
  show execXonIdleRevoke d p part vc s = _
  simp [execXonIdleRevoke, hon, hholds, hlast, hr]

/-! ### Throttle -/

/-- A die with throttle engaged on a queue, and the caps counted afresh (R251 to R253). -/
def Die.engage (x : Die) (port part vc : Nat) (b : Bool) : Die :=
  ({ (x.count (cPartVc 10 1 part vc)) with
     throttled := Map.put x.throttled (queueKey port part vc) b
     window := Map.upd x.window (queueKey port part vc) 0 fun n => n ||| 2 }).recap

/-- A die on which throttle of a queue has ended (R254). -/
def Die.unthrottle (x : Die) (k : Nat) : Die := ({ x with throttled := Map.rem x.throttled k }).recap

theorem State.fresh_throttleDue (port part vc : Nat) : s.fresh.throttleDue d port part vc = s.throttleDue d port part vc := by
  simp [State.throttleDue, State.isLeaf]

theorem exec_throttleEngage_due (hon : (s.die d).on = true)
    (hk : Map.look (s.die d).throttled (queueKey p.val part.toNat vc.toNat) = none) {b : Bool}
    (hb : s.throttleDue d p.val part.toNat vc.toNat = some b) :
    exec (.throttleEngage d p part vc) s =
      .next ((s.fresh.modDie d fun x => x.engage p.val part.toNat vc.toNat b).xoffWithheld d) := by
  show execThrottleEngage d p part vc s = _
  simp [execThrottleEngage, hon, hk, State.fresh_throttleDue, hb, Die.engage]

theorem exec_throttleEngage_undue (hb : s.throttleDue d p.val part.toNat vc.toNat = none) :
    exec (.throttleEngage d p part vc) s = .next s.fresh := by
  show execThrottleEngage d p part vc s = _
  simp [execThrottleEngage, State.fresh_throttleDue, hb]

theorem exec_throttleEnd_free (hk : Map.look (s.die d).throttled (queueKey p.val part.toNat vc.toNat) = none) :
    exec (.throttleEnd d p part vc) s = .next s.fresh := by
  show execThrottleEnd d p part vc s = _
  simp [execThrottleEnd, hk]

section Engaged
variable {b : Bool} (hk : Map.look (s.die d).throttled (queueKey p.val part.toNat vc.toNat) = some b)
include hk

theorem exec_throttleEngage_engaged : exec (.throttleEngage d p part vc) s = .next s.fresh := by
  show execThrottleEngage d p part vc s = _
  simp [execThrottleEngage, hk]

theorem exec_throttleEnd_above (hover : (s.die d).throttleOver p.val part.toNat vc.toNat b = false) :
    exec (.throttleEnd d p part vc) s = .next s.fresh := by
  show execThrottleEnd d p part vc s = _
  simp [execThrottleEnd, hk, hover]

theorem exec_throttleEnd_over (hon : (s.die d).on = true)
    (hover : (s.die d).throttleOver p.val part.toNat vc.toNat b = true) :
    exec (.throttleEnd d p part vc) s = .next (s.fresh.modDie d fun x => x.unthrottle (queueKey p.val part.toNat vc.toNat)) := by
  show execThrottleEnd d p part vc s = _
  simp [execThrottleEnd, hon, hk, hover, Die.unthrottle]

end Engaged

/-! ### Windows -/

theorem exec_oversubWindowEnd_none (hw : (s.die d).ended = none) : exec (.oversubWindowEnd d) s = .next s.fresh := by
  show execOversubWindowEnd d s = _
  simp [execOversubWindowEnd, hw]

theorem exec_oversubWindowEnd_some (hon : (s.die d).on = true) {w : Map Nat} (hw : (s.die d).ended = some w) :
    exec (.oversubWindowEnd d) s = .next ((((s.die d).nextRuns w).filter fun e => e.2.1 == 16).foldl (fun (t : State) e =>
      t.raiseDie 0x0982 d (BitVec.ofNat 8 (e.1 / 128)) (BitVec.ofNat 8 (e.1 % 128 / 8)) (BitVec.ofNat 8 (e.1 % 8))
        (if e.2.2 then 2 else 1) (le 4 16)) (s.fresh.setDie d { s.die d with ended := none, runs := (s.die d).nextRuns w })) := by
  show execOversubWindowEnd d s = _
  simp [execOversubWindowEnd, State.modDie, hon, hw]

/-! ### What throttle changes -/

theorem Die.engage_kept (x : Die) (port part vc : Nat) (b : Bool) :
    let y := x.engage port part vc b
    y.tab = x.tab ∧ y.held = x.held ∧ y.throttled = Map.put x.throttled (queueKey port part vc) b ∧
      y.window = Map.upd x.window (queueKey port part vc) 0 fun n => n ||| 2 := ⟨rfl, rfl, rfl, rfl⟩

theorem Die.unthrottle_kept (x : Die) (k : Nat) :
    let y := x.unthrottle k
    y.tab = x.tab ∧ y.held = x.held ∧ y.throttled = Map.rem x.throttled k := ⟨rfl, rfl, rfl⟩

end Sys2Proof.Machine
end

section
/-! XON and throttle (O54). -/

namespace Sys2Proof.Machine

/-- Settles O54: a pass of XON_GRANT grants only what R235 and R635 allow, and each other clause is the rule of its command. The order of a
pass among several wanting ports is the model's choice (log entry 66). -/
theorem flowAndThrottleComplete : Obligations.FlowAndThrottleComplete := by
  unfold Obligations.FlowAndThrottleComplete
  intro s d hon x others copies
  have hothers {u t : State} (hu : others u) (h : u.BesideXon d t) : others t := by
    obtain ⟨hdie, htok, hfuse, htab, hheld⟩ := hu
    exact ⟨fun e he => (h.others e he).trans (hdie e he), h.tok.trans htok, h.fuse.trans hfuse, h.tab.trans htab, h.held.trans hheld⟩
  have hmod {f : Die → Die} (htab : (f x).tab = x.tab) (hheld : (f x).held = x.held) : others (s.fresh.modDie d f) := by
    refine ⟨fun e he => ?_, by simp, by simp, ?_, ?_⟩
    · rw [State.die_modDie_ne _ _ he, State.fresh_die]
    · rw [State.die_modDie, State.fresh_die, htab]
    · rw [State.die_modDie, State.fresh_die, hheld]
  have hself : others s := ⟨fun _ _ => rfl, rfl, rfl, rfl, rfl⟩
  refine ⟨fun part vc => ?grant, fun p part vc r => ?revoke, fun p part vc => ?throttle, exec_oversubWindowEnd_none,
    fun w => exec_oversubWindowEnd_some hon⟩
  case grant =>
    intro key
    have hkey : key < 128 := stateKey_lt part vc
    obtain ⟨hbeside, hkeeps, hgives⟩ := State.checkQuotas_grants (s := s) (d := d) part.toNat vc.toNat hkey
    refine ⟨_, exec_xonGrant hon, hothers hself hbeside, hkeeps, hgives, fun p hone hw hroom => ?_⟩
    rw [State.checkQuotas_grant_single _ _ hkey hone hw hroom]
    refine ⟨?_, (s.checkQuotas d part.toNat vc.toNat).out, State.grantOne_out key p⟩
    rw [State.grantOne_die, Die.giveXon_holdsXon p hkey, if_pos ⟨rfl, rfl⟩]
  case revoke =>
    intro key hholds hlast
    have hkey : key < 128 := stateKey_lt part vc
    have hafter (q k : Nat) := State.sendXoff_holdsXon (s := s.fresh) (d := d) p.val hkey q k
    refine ⟨exec_xonIdleRevoke_busy hlast, fun hr => ⟨_, exec_xonIdleRevoke_idle hon hholds hlast hr,
      hothers hself (State.besideXon_fresh.trans (State.besideXon_sendXoff p.val key)), ?_, State.sendXoff_out p.val key, ?_,
      fun q k hqk => ?_⟩⟩
    · rw [hafter, if_pos ⟨rfl, rfl⟩]
    · rw [State.sendXoff_port_self, State.fresh_die]
      exact Map.look_put_self ..
    · rw [hafter, if_neg fun ⟨hq, hk⟩ => hqk.elim (· hq) (· hk), State.fresh_die]
  case throttle =>
    intro k
    refine ⟨fun hk => ⟨fun b hb => ?engage, exec_throttleEngage_undue, exec_throttleEnd_free hk⟩, fun b hk =>
      ⟨exec_throttleEngage_engaged hk, exec_throttleEnd_above hk, fun hover => ?ends⟩⟩
    case engage =>
      obtain ⟨htab, hheld, hthrottled, hwindow⟩ := x.engage_kept p.val part.toNat vc.toNat b
      have hxoff := State.besideXon_xoffWithheld (s := s.fresh.modDie d fun y => y.engage p.val part.toNat vc.toNat b) (d := d)
      refine ⟨_, exec_throttleEngage_due hon hk hb, ?_, ?_, hothers (hmod htab hheld) hxoff⟩
      · rw [hxoff.throttled, State.die_modDie, State.fresh_die, hthrottled]
      · rw [hxoff.window, State.die_modDie, State.fresh_die, hwindow]
    case ends =>
      obtain ⟨htab, hheld, hthrottled⟩ := x.unthrottle_kept k
      refine ⟨_, exec_throttleEnd_over hk hon hover, ?_, hmod htab hheld⟩
      rw [State.die_modDie, State.fresh_die, hthrottled]

end Sys2Proof.Machine
end

section
/-! SUPPORT. What the packets of a pour, its stages and its end leave alone on a die and in the tray. -/

namespace Sys2Proof.Machine

/-! ### The parts of a die that pours write -/

/-- A die but for what a packet that it sends or discards writes: counters, the discards by destination, the partitions that a fault touched, the held
packets with the next number and the window of R255, and the paths of relays. -/
def Die.besideSent (x : Die) : Die :=
  { x with ctr := [], lostTo := [], touched := 0, held := [], nextId := 0, window := [], relays := [] }

/-- A die but for what the pours at its places write: also the pours and pots, the records of R271 and R294, and what it keeps to relay. -/
def Die.besidePours (x : Die) : Die :=
  { x.besideSent with pots := [], pours := [], aborts := [], abortDue := [], lastAbort := [], relayUps := [], relayDowns := [] }

section Die
variable {x y : Die}

/-- What does not read the parts that `f` clears is the same for two dies that agree beside them. -/
theorem Die.eq_of_beside {α : Type} {f : Die → Die} (h : f y = f x) (g : Die → α) (hg : ∀ z : Die, g (f z) = g z) : g y = g x := by
  rw [← hg y, h, hg]

theorem Die.besidePours_of_besideSent (h : y.besideSent = x.besideSent) : y.besidePours = x.besidePours :=
  Die.eq_of_beside h Die.besidePours fun _ => rfl

theorem Die.beside_foldl {α : Type} {f : Die → Die} {g : Die → α → Die} (hg : ∀ z a, f (g z a) = f z) (l : List α) :
    f (l.foldl g x) = f x :=
  List.foldlRecOn (motive := fun z : Die => f z = f x) _ _ rfl fun z h a _ => (hg z a).trans h

/-! ### Packets sent and discarded -/

@[simp] theorem Die.touch_besideSent (part : Nat) : (x.touch part).besideSent = x.besideSent := by
  unfold Die.touch
  split <;> rfl

@[simp] theorem Die.discard_besideSent (h : Hdr) (key : Nat) (touch : Bool) : (x.discard h key touch).besideSent = x.besideSent := by
  unfold Die.discard
  extract_lets y z
  split
  · exact Die.touch_besideSent _
  · rfl

@[simp] theorem Die.enqueue_besideSent (h : Held) : (x.enqueue h).besideSent = x.besideSent := by
  unfold Die.enqueue
  extract_lets m y z
  have hz : z.besideSent = x.besideSent := by
    unfold z
    split <;> rfl
  exact hz

@[simp] theorem Die.sendOwn_besideSent (port : Nat) (h : Hdr) (data : List Byte) (place : Option (PourKey × Place)) :
    (x.sendOwn port h data place).besideSent = x.besideSent := Die.enqueue_besideSent _

@[simp] theorem Die.sendStream_besideSent (port : Nat) (k : PourKey) (part : BitVec 4) (vc : Nat) (far : Option Nat) (head : BlendHead)
    (at_ : Nat) (data : List Byte) (mark : Bool) (place : Option (PourKey × Place)) :
    (x.sendStream port k part vc far head at_ data mark place).besideSent = x.besideSent :=
  Die.beside_foldl (fun _ _ => Die.sendOwn_besideSent ..) _

@[simp] theorem Die.sendPieces_besideSent (port : Nat) (k : PourKey) (part : BitVec 4) (vc : Nat) (far : Option Nat) (hd : BlendHead)
    (none_ : Nat) (pieces : List (Nat × List Byte)) (mark : Bool) (place : Option (PourKey × Place)) :
    (x.sendPieces port k part vc far hd none_ pieces mark place).besideSent = x.besideSent :=
  Die.beside_foldl (fun _ _ => Die.sendStream_besideSent ..) _

@[simp] theorem Die.noteRelay_besideSent (k : PourKey) (vc far port : Nat) : (x.noteRelay k vc far port).besideSent = x.besideSent := by
  unfold Die.noteRelay
  split <;> rfl

/-! ### Pours and pots -/

@[simp] theorem Die.freePot_besidePours (n : Option Nat) : (x.freePot n).besidePours = x.besidePours := by cases n <;> rfl

@[simp] theorem Die.modPour_besidePours (k : PourKey) (pl : Place) (n : Nat) (f : Pour → Pour) :
    (x.modPour k pl n f).besidePours = x.besidePours := rfl

@[simp] theorem Die.givePot_besidePours (k : PourKey) (part : BitVec 4) (pl : Place) (n : Nat) (stage : Bool) :
    (x.givePot k part pl n stage).besidePours = x.besidePours := by
  unfold Die.givePot
  repeat' split
  all_goals rfl

@[simp] theorem Die.openPour_besidePours (k : PourKey) (part : BitVec 4) (pl : Place) (n : Nat) :
    (x.openPour k part pl n).besidePours = x.besidePours := by
  unfold Die.openPour
  split
  · rfl
  · exact Die.givePot_besidePours ..

@[simp] theorem Die.takeInput_besidePours (k : PourKey) (part : BitVec 4) (pl : Place) (n : Nat) (hd : BlendHead) (mark : Bool)
    (data : List Byte) (w : Option Parked) : (x.takeInput k part pl n hd mark data w).besidePours = x.besidePours :=
  Die.openPour_besidePours ..

@[simp] theorem Die.takeContribution_besidePours (k : PourKey) (part : BitVec 4) (rank p cap : Nat) (data : List Byte) (last mark : Bool)
    (w : Option Parked) : (x.takeContribution k part rank p cap data last mark w).besidePours = x.besidePours :=
  Die.openPour_besidePours ..

@[simp] theorem Die.relayedInput_besidePours (k : PourKey) (part : BitVec 4) (p : Nat) (hd : BlendHead) (data : List Byte) (mark : Bool)
    (w : Option Parked) : (x.relayedInput k part p hd data mark w).besidePours = x.besidePours :=
  Die.openPour_besidePours ..

@[simp] theorem Die.waitPot_besidePours (q : Pour) : (x.waitPot q).besidePours = x.besidePours := by
  unfold Die.waitPot
  split <;> rfl

@[simp] theorem Die.placeDone_besidePours (k : PourKey) (pl : Place) : (x.placeDone k pl).besidePours = x.besidePours := by
  unfold Die.placeDone
  extract_lets here y
  have hy : y.besidePours = x.besidePours := Die.beside_foldl (fun z (q : Pour) => Die.freePot_besidePours (x := z) q.pot) _
  split
  · rfl
  · cases pl <;> exact hy

@[simp] theorem Die.dropPour_besidePours (k : PourKey) (status : BitVec 4) (mark : Bool) :
    (x.dropPour k status mark).besidePours = x.besidePours := by
  unfold Die.dropPour
  extract_lets c keep gone told r y z
  have hy : y.besidePours = x.besidePours := Die.beside_foldl (fun w (q : Pour) => Die.freePot_besidePours (x := w) q.pot) _
  have hz : z.besidePours = y.besidePours := Die.beside_foldl (fun w q => by split <;> rfl) _
  exact hz.trans hy

end Die

/-! ### The tray beside one die -/

/-- `t` is `s` but for the parts of die `d` that `f` clears and what events write. -/
structure State.Beside (f : Die → Die) (d : DieId) (s t : State) : Prop where
  die : f (t.die d) = f (s.die d)
  others : ∀ e, e ≠ d → t.die e = s.die e
  boot : t.boot = s.boot
  tok : t.tok = s.tok
  fuse : t.fuse = s.fuse

section Tray
variable {f : Die → Die} {d : DieId} {s t u : State}

theorem State.Beside.refl (s : State) : s.Beside f d s := ⟨rfl, fun _ _ => rfl, rfl, rfl, rfl⟩

theorem State.Beside.trans (h : s.Beside f d t) (k : t.Beside f d u) : s.Beside f d u :=
  ⟨k.die.trans h.die, fun e he => (k.others e he).trans (h.others e he), k.boot.trans h.boot, k.tok.trans h.tok, k.fuse.trans h.fuse⟩

theorem State.Beside.of_calm (h : t.calm = s.calm) : s.Beside f d t :=
  ⟨by rw [State.die_of_calm h], fun e _ => State.die_of_calm h e, (congrArg State.boot h : t.calm.boot = s.calm.boot),
    State.tok_of_calm h, State.fuse_of_calm h⟩

theorem State.Beside.modDie {g : Die → Die} (hg : f (g (s.die d)) = f (s.die d)) : s.Beside f d (s.modDie d g) :=
  ⟨by rw [State.die_modDie, hg], fun _ he => State.die_modDie_ne s g he, by simp, by simp, by simp⟩

/-- Two changes of a die that agree beside what `f` clears. -/
theorem State.Beside.modDie_modDie {g h : Die → Die} (hgh : f (h (s.die d)) = f (g (s.die d))) :
    (s.modDie d g).Beside f d (s.modDie d h) :=
  ⟨by rw [State.die_modDie, State.die_modDie, hgh],
    fun _ he => (State.die_modDie_ne s h he).trans (State.die_modDie_ne s g he).symm, by simp, by simp, by simp⟩

theorem State.Beside.foldl {α : Type} {g : State → α → State} (hg : ∀ (t : State) a, t.Beside f d (g t a)) (l : List α) (s : State) :
    s.Beside f d (l.foldl g s) :=
  List.foldlRecOn (motive := fun t => s.Beside f d t) _ _ (.refl s) fun t h a _ => h.trans (hg t a)

theorem State.Beside.eq {α : Type} (h : s.Beside f d t) (g : Die → α) (hg : ∀ z : Die, g (f z) = g z) : g (t.die d) = g (s.die d) :=
  Die.eq_of_beside h.die g hg

/-- What is the same beside the packets of a die is the same beside its pours. -/
theorem State.Beside.pours (h : s.Beside Die.besideSent d t) : s.Beside Die.besidePours d t :=
  ⟨Die.besidePours_of_besideSent h.die, h.others, h.boot, h.tok, h.fuse⟩

theorem State.Beside.leafIndex (h : s.Beside f d t) (e : DieId) : t.leafIndex e = s.leafIndex e := by
  simp only [State.leafIndex, h.boot]

/-! ### Packets to members, aborts and stages -/

theorem State.beside_sendMember (k : PourKey) (part : BitVec 4) (rank : Nat) (ep : BitVec 11) (result : Option (List Byte))
    (word : BitVec 128) (mark : Bool) (place : Option (PourKey × Place)) :
    s.Beside Die.besideSent d (s.sendMember d k part rank ep result word mark place) := by
  unfold State.sendMember
  extract_lets w res port far
  split
  · refine .modDie ?_
    rw [Die.sendOwn_besideSent]
    clear_value res
    cases res with
    | none => rfl
    | some bytes =>
      rw [Die.sendOwn_besideSent]
      exact Die.beside_foldl (fun _ _ => Die.sendOwn_besideSent ..) _
  · split
    · exact .modDie (Die.discard_besideSent ..)
    · exact .modDie (by simp)

theorem State.beside_abortWords (k : PourKey) (part status : BitVec 4) (ins : Map Input) (mark : Bool) :
    s.Beside Die.besideSent d (s.abortWords d k part status ins mark) := by
  refine .foldl (fun t i => ?_) _ s
  split
  · exact State.beside_sendMember ..
  · exact .refl t

theorem State.beside_abortHeads (k : PourKey) (part status : BitVec 4) (mark : Bool) :
    s.Beside Die.besideSent d (s.abortHeads d k part status mark) := by
  have hsend (t : State) (port vc : Nat) (far : Option Nat) (head : BlendHead) :
      t.Beside Die.besideSent d (t.modDie d fun x => x.sendStream port k part vc far head 0 [] mark none) :=
    .modDie (Die.sendStream_besideSent ..)
  unfold State.abortHeads
  extract_lets g c head coll
  split
  · refine .foldl (fun t l => ?_) _ s
    split
    · exact hsend ..
    · exact .refl t
  · split
    · refine .foldl (fun t z => ?_) _ s
      split
      · exact hsend ..
      · exact .refl t
    · split
      · split
        · exact .refl s
        · split
          · exact hsend ..
          · exact .refl s
      · exact .refl s

theorem State.abortPour_recorded {k : PourKey} {r : AbortRec} (h : (s.die d).record k = some r) (status : BitVec 4) (heads mark : Bool) :
    s.abortPour d k status heads mark = s := by
  simp [State.abortPour, h]

/-- An abort drops the pour at its die, and otherwise only sends and discards packets. -/
theorem State.beside_abortPour_dropPour {k : PourKey} (h : (s.die d).record k = none) (status : BitVec 4) (heads mark : Bool) :
    (s.modDie d fun x => x.dropPour k status mark).Beside Die.besideSent d (s.abortPour d k status heads mark) := by
  unfold State.abortPour
  extract_lets x c part started ins m t u v
  have hx : x.record k = none := h
  have hu : t.Beside Die.besideSent d u := by
    unfold u
    split
    · exact .refl t
    · exact State.beside_abortWords ..
  have hv : u.Beside Die.besideSent d v := by
    unfold v
    split
    · exact State.beside_abortHeads ..
    · exact .refl u
  rw [hx]
  dsimp only
  split
  · exact (hu.trans hv).trans (.modDie (Die.touch_besideSent _))
  · exact hu.trans hv

theorem State.beside_abortPour (k : PourKey) (status : BitVec 4) (heads mark : Bool) :
    s.Beside Die.besidePours d (s.abortPour d k status heads mark) := by
  cases h : (s.die d).record k with
  | some r =>
    rw [State.abortPour_recorded h]
    exact .refl s
  | none => exact (State.Beside.modDie (Die.dropPour_besidePours ..)).trans (State.beside_abortPour_dropPour h ..).pours

theorem State.beside_abortAll (status : BitVec 4) (p : Pour → Bool) : s.Beside Die.besidePours d (s.abortAll d status p) :=
  .foldl (fun _ _ => State.beside_abortPour ..) _ s

end Tray

end Sys2Proof.Machine
end

section
/-! SUPPORT. The end of a pour: its record, and what is left of it at its die (spec/07 R271, R294, R295). -/

namespace Sys2Proof.Machine

/-! ### Ticks -/

theorem gTimeout_lt (c : BitVec 128) : gTimeout c < 2 ^ 20 := (fld c 85 20).isLt

/-- A tick that lies up to a `POUR_TIMEOUT` ahead is not reached. -/
theorem not_reached_add {n : Nat} (h0 : n ≠ 0) (hn : n < 2 ^ 20) (t : Tick) : reached t (t + BitVec.ofNat 48 n) = false := by
  have hsub : (t - (t + BitVec.ofNat 48 n)).toNat = 2 ^ 48 - n := by
    rw [BitVec.toNat_sub, BitVec.toNat_add, BitVec.toNat_ofNat]
    have := t.isLt
    omega
  have hne : t ≠ t + BitVec.ofNat 48 n := by
    intro h
    have := congrArg BitVec.toNat h
    rw [BitVec.toNat_add, BitVec.toNat_ofNat] at this
    omega
  have hearly : ¬(2 ^ 48 - n < 2 ^ 47) := by omega
  unfold reached later
  rw [hsub, beq_false_of_ne hne]
  dsimp only
  rw [decide_eq_false hearly, Bool.and_false, Bool.or_false]

/-! ### What an abort leaves of a pour -/

/-- What an abort keeps of the pours of a die: those of other names, and a delivery that has started (R271, R294). -/
def Pour.survives (k : PourKey) (q : Pour) : Bool := q.key != k || (q.place == .delivery && q.started)

/-- A die but for its pots and counters. -/
def Die.besidePots (x : Die) : Die := { x with pots := [], ctr := [] }

section Drop
variable {x : Die} {k : PourKey}

theorem Die.freePot_besidePots (n : Option Nat) : (x.freePot n).besidePots = x.besidePots := by cases n <;> rfl

/-- An abort keeps the pours that survive it, and makes a record that lasts for `POUR_TIMEOUT` ticks. -/
theorem Die.dropPour_kept (status : BitVec 4) (mark : Bool) :
    (x.dropPour k status mark).pours = x.pours.filter (Pour.survives k) ∧
    ∃ r : AbortRec, r.key = k ∧ r.status = status ∧
      r.until_ = x.now + BitVec.ofNat 48 (gTimeout (x.view.group k.group.toNat).control) ∧
      (x.dropPour k status mark).aborts = (x.aborts.filter fun r => r.key != k) ++ [r] := by
  unfold Die.dropPour
  extract_lets c keep gone told r y z
  have hy : y.besidePots = x.besidePots := Die.beside_foldl (fun w (q : Pour) => Die.freePot_besidePots (x := w) q.pot) _
  have hz : z.besidePots = x.besidePots := (Die.beside_foldl (fun w q => by split <;> rfl) _).trans hy
  have hpours : z.pours = x.pours := Die.eq_of_beside hz (·.pours) fun _ => rfl
  have haborts : z.aborts = x.aborts := Die.eq_of_beside hz (·.aborts) fun _ => rfl
  exact ⟨congrArg (List.filter keep) hpours, r, rfl, rfl, rfl, congrArg (fun l : List AbortRec => l.filter (fun r => r.key != k) ++ [r]) haborts⟩

/-- After an abort the die has a record of the pour with its status, where the group has a `POUR_TIMEOUT`. -/
theorem Die.dropPour_record (ht : gTimeout (x.view.group k.group.toNat).control ≠ 0) (status : BitVec 4) (mark : Bool) :
    ∃ r, (x.dropPour k status mark).record k = some r ∧ r.status = status := by
  obtain ⟨-, r, hkey, hstatus, huntil, haborts⟩ := x.dropPour_kept (k := k) status mark
  have hnow : (x.dropPour k status mark).now = x.now := Die.eq_of_beside (Die.dropPour_besidePours ..) (·.now) fun _ => rfl
  have hold : (x.aborts.filter fun r => r.key != k).find? (fun r => r.key == k && !reached x.now r.until_) = none := by
    refine List.find?_eq_none.2 fun a ha => ?_
    have hne : a.key ≠ k := by simpa using (List.mem_filter.1 ha).2
    simp [hne]
  refine ⟨r, ?_, hstatus⟩
  rw [Die.record, haborts, hnow, List.find?_append, hold]
  simp [hkey, huntil, not_reached_add ht (gTimeout_lt _)]

end Drop

section Abort
variable {s : State} {d : DieId} {k : PourKey}

theorem State.Beside.record {s t : State} (h : s.Beside Die.besideSent d t) (k : PourKey) : (t.die d).record k = (s.die d).record k :=
  h.eq (·.record k) fun _ => rfl

variable (h : (s.die d).record k = none) (status : BitVec 4) (heads mark : Bool)
include h

/-- After an abort only what survives it is left of the pours (R271, R294). -/
theorem State.abortPour_pours :
    ((s.abortPour d k status heads mark).die d).pours = (s.die d).pours.filter (Pour.survives k) := by
  have hpours := (State.beside_abortPour_dropPour h status heads mark).eq (·.pours) fun _ => rfl
  rw [hpours, State.die_modDie]
  exact (Die.dropPour_kept status mark).1

theorem State.abortPour_ends :
    ∀ q ∈ ((s.abortPour d k status heads mark).die d).pours, q.key = k → q.place = .delivery ∧ q.started = true := by
  intro q hq hk
  rw [State.abortPour_pours h] at hq
  have := (List.mem_filter.1 hq).2
  simpa [Pour.survives, hk] using this

theorem State.abortPour_record (ht : gTimeout ((s.die d).view.group k.group.toNat).control ≠ 0) :
    ∃ r, ((s.abortPour d k status heads mark).die d).record k = some r ∧ r.status = status := by
  rw [(State.beside_abortPour_dropPour h status heads mark).record, State.die_modDie]
  exact Die.dropPour_record ht status mark

end Abort

end Sys2Proof.Machine
end

section
/-! SUPPORT. The pours at the places of a die: what a place holds after a pot is given, an input taken or a pour begun (spec/07 R284, R289, R291). -/

namespace Sys2Proof.Machine

/-- A change of a pour that leaves its name and place. -/
def Pour.Keeps (f : Pour → Pour) : Prop := ∀ q, (f q).key = q.key ∧ (f q).place = q.place ∧ (f q).slot = q.slot

/-- The pour is the one of a name at a place. -/
def Pour.isAt (k : PourKey) (pl : Place) (n : Nat) (q : Pour) : Bool := q.key == k && q.place == pl && q.slot == n

theorem Pour.isAt_iff {k : PourKey} {pl : Place} {n : Nat} {q : Pour} : q.isAt k pl n = true ↔ q.key = k ∧ q.place = pl ∧ q.slot = n := by
  simp [Pour.isAt, and_assoc]

theorem Pour.Keeps.isAt {f : Pour → Pour} (hf : Pour.Keeps f) (k : PourKey) (pl : Place) (n : Nat) (q : Pour) :
    (f q).isAt k pl n = q.isAt k pl n := by
  obtain ⟨hkey, hplace, hslot⟩ := hf q
  simp only [Pour.isAt, hkey, hplace, hslot]

section At
variable {x y : Die} {k j : PourKey} {pl pm : Place} {n m : Nat}

theorem Die.pourAt_eq : x.pourAt k pl n = x.pours.find? (Pour.isAt k pl n) := rfl

theorem Die.modPour_pours (f : Pour → Pour) :
    (x.modPour k pl n f).pours = x.pours.map fun q => if q.isAt k pl n then f q else q := rfl

theorem Die.pourAt_mem {q : Pour} (h : x.pourAt k pl n = some q) : q ∈ x.pours ∧ q.key = k ∧ q.place = pl ∧ q.slot = n :=
  ⟨List.mem_of_find?_eq_some h, Pour.isAt_iff.1 (List.find?_some h)⟩

/-- Changing the pour at a place changes what that place holds. -/
theorem Die.pourAt_modPour {f : Pour → Pour} (hf : Pour.Keeps f) : (x.modPour k pl n f).pourAt k pl n = (x.pourAt k pl n).map f := by
  have hsame : Pour.isAt k pl n ∘ (fun q => if q.isAt k pl n then f q else q) = Pour.isAt k pl n := by
    funext q
    by_cases hq : q.isAt k pl n <;> simp [hq, hf.isAt]
  rw [Die.pourAt_eq, Die.modPour_pours, List.find?_map, hsame, ← Die.pourAt_eq]
  cases h : x.pourAt k pl n with
  | none => rfl
  | some q =>
    have hq : q.isAt k pl n = true := List.find?_some h
    simp [hq]

/-- Changing the pour at one place leaves every other place as it is. -/
theorem Die.pourAt_modPour_ne {f : Pour → Pour} (hf : Pour.Keeps f) (hne : ¬(j = k ∧ pm = pl ∧ m = n)) :
    (x.modPour k pl n f).pourAt j pm m = x.pourAt j pm m := by
  have hsame : Pour.isAt j pm m ∘ (fun q => if q.isAt k pl n then f q else q) = Pour.isAt j pm m := by
    funext q
    by_cases hq : q.isAt k pl n <;> simp [hq, hf.isAt]
  rw [Die.pourAt_eq, Die.modPour_pours, List.find?_map, hsame, ← Die.pourAt_eq]
  cases h : x.pourAt j pm m with
  | none => rfl
  | some q =>
    obtain ⟨-, rfl, rfl, rfl⟩ := Die.pourAt_mem h
    have hq : ¬q.isAt k pl n = true := fun hq => hne (Pour.isAt_iff.1 hq)
    simp [hq]

/-! ### A pot given -/

/-- A pour that takes a pot. -/
def Pour.takePot (i : Nat) (q : Pour) : Pour := { q with pot := some i, waits := [] }

theorem Pour.keeps_takePot (i : Nat) : Pour.Keeps (Pour.takePot i) := fun _ => ⟨rfl, rfl, rfl⟩

/-- A die either leaves a place as it is, or gives a pot to the pour there. -/
theorem Die.givePot_cases (x : Die) (k : PourKey) (part : BitVec 4) (pl : Place) (n : Nat) (stage : Bool) :
    x.givePot k part pl n stage = x ∨
      ∃ i, x.givePot k part pl n stage =
        { x with pots := Map.upd x.pots i {} fun p => { p with pour := some k } }.modPour k pl n (Pour.takePot i) := by
  unfold Die.givePot
  split
  · split
    · exact .inl rfl
    · split
      · exact .inr ⟨_, rfl⟩
      · exact .inl rfl
  · exact .inl rfl

/-- A pour that holds a pot, or needs none, is given none. -/
theorem Die.givePot_eq_self {q : Pour} (h : x.pourAt k pl n = some q) (hpot : needsPot k pl = true → q.pot.isSome = true) (part : BitVec 4)
    (stage : Bool) : x.givePot k part pl n stage = x := by
  have hno : (q.pot.isSome || !needsPot k pl) = true := by
    cases hn : needsPot k pl with
    | true => simp [hpot hn]
    | false => simp
  simp [Die.givePot, h, hno]

/-- A pour given a pot is otherwise the same, but for the inputs that waited for it. -/
theorem Die.pourAt_givePot {q : Pour} (h : x.pourAt k pl n = some q) (part : BitVec 4) (stage : Bool) :
    ∃ i l, (x.givePot k part pl n stage).pourAt k pl n = some { q with pot := i, waits := l } := by
  rcases x.givePot_cases k part pl n stage with he | ⟨i, he⟩
  · exact ⟨q.pot, q.waits, by rw [he, h]⟩
  · refine ⟨some i, [], ?_⟩
    rw [he, Die.pourAt_modPour (Pour.keeps_takePot i)]
    exact congrArg (Option.map (Pour.takePot i)) h

theorem Die.pourAt_givePot_ne (part : BitVec 4) (stage : Bool) (hne : m ≠ n) :
    (x.givePot k part pl n stage).pourAt k pl m = x.pourAt k pl m := by
  rcases x.givePot_cases k part pl n stage with he | ⟨i, he⟩
  · rw [he]
  · rw [he, Die.pourAt_modPour_ne (Pour.keeps_takePot i) fun h => hne h.2.2]
    rfl

theorem Die.givePot_record (part : BitVec 4) (stage : Bool) (j : PourKey) : (x.givePot k part pl n stage).record j = x.record j := by
  rcases x.givePot_cases k part pl n stage with he | ⟨i, he⟩ <;> rw [he]
  rfl

/-! ### Inputs taken -/

/-- The inputs that a place holds of a pour. -/
def Die.inputsAt (x : Die) (k : PourKey) (pl : Place) (n : Nat) : Map Input :=
  match x.pourAt k pl n with | some q => q.inputs | none => []

/-- A place holds a pour once it has been opened, with the inputs that it held before. -/
theorem Die.pourAt_openPour (x : Die) (k : PourKey) (part : BitVec 4) (pl : Place) (n : Nat) :
    ∃ q, (x.openPour k part pl n).pourAt k pl n = some q ∧ q.inputs = x.inputsAt k pl n := by
  unfold Die.inputsAt Die.openPour
  cases h : x.pourAt k pl n with
  | some q => exact ⟨q, by simp [h], rfl⟩
  | none =>
    have hnone : x.pours.find? (Pour.isAt k pl n) = none := h
    let q : Pour := { key := k, part := part, place := pl, slot := n, first := x.now, lastIn := x.now }
    have hq : ({ x with aborts := x.aborts.filter fun r => r.key != k, pours := x.pours ++ [q] } : Die).pourAt k pl n = some q := by
      rw [Die.pourAt_eq, List.find?_append, hnone]
      simp [Pour.isAt, q]
    obtain ⟨i, l, hgive⟩ := Die.pourAt_givePot hq part false
    exact ⟨_, hgive, rfl⟩

/-- A pour with one of its inputs written. -/
def Pour.setInput (pos : Nat) (g : Map Input → Input) (now : Tick) (w : Option Parked) (q : Pour) : Pour :=
  { q with inputs := Map.put q.inputs pos (g q.inputs), lastIn := now, waits := q.park w pos }

/-- An input after a packet with a blend head of `KIND` 1 to 3 (Table 07-4). -/
def BlendHead.input (hd : BlendHead) (mark : Bool) (data : List Byte) (m : Map Input) : Input :=
  let i := Map.lookD m hd.pos.toNat { pos := hd.pos.toNat }
  { i with
    data := if data.isEmpty then i.data else Map.put i.data hd.offset.toNat data,
    last := i.last || hd.last, len := hd.pourLen.toNat, ovfRanks := hd.ovfRanks.toNat, ovfLow := hd.ovfLow.toNat,
    numFlags := i.numFlags ||| hd.flags, mark := i.mark || mark }

/-- An input after a packet of a relayed contribution (`KIND` 4). -/
def BlendHead.relayed (hd : BlendHead) (p : Nat) (mark : Bool) (data : List Byte) (m : Map Input) : Input :=
  let i := Map.lookD m (hd.pos.toNat % 32) { pos := hd.pos.toNat % 32, rank := hd.pos.toNat, inPort := p }
  { i with
    data := if data.isEmpty then i.data else Map.put i.data hd.offset.toNat data, last := i.last || hd.last,
    len := hd.pourLen.toNat, ovfRanks := hd.ovfRanks.toNat, ovfLow := hd.pos.toNat, mark := i.mark || mark }

/-- An input after one more packet of a member's contribution. -/
def contributed (rank p cap : Nat) (data : List Byte) (last mark : Bool) (m : Map Input) : Input :=
  (Map.lookD m (rank % 32) { pos := rank % 32, rank := rank, inPort := p }).add cap data last mark

/-- A place opened for a pour, with one of its inputs then written. -/
theorem Die.openPour_setInput (part : BitVec 4) (pos : Nat) (g : Map Input → Input) (now : Tick) (w : Option Parked) :
    ∃ q, ((x.openPour k part pl n).modPour k pl n (Pour.setInput pos g now w)).pourAt k pl n = some q ∧
      Map.look q.inputs pos = some (g (x.inputsAt k pl n)) := by
  obtain ⟨q, hq, hin⟩ := x.pourAt_openPour k part pl n
  have hkeeps : Pour.Keeps (Pour.setInput pos g now w) := fun _ => ⟨rfl, rfl, rfl⟩
  refine ⟨q.setInput pos g now w, by rw [Die.pourAt_modPour hkeeps, hq]; rfl, ?_⟩
  rw [← hin]
  exact Map.look_put_self ..

/-- What a place holds of the input that a packet with a blend head belongs to (R284, R285). -/
theorem Die.takeInput_input (part : BitVec 4) (hd : BlendHead) (mark : Bool) (data : List Byte) (w : Option Parked) :
    ∃ q i, (x.takeInput k part pl n hd mark data w).pourAt k pl n = some q ∧ Map.look q.inputs hd.pos.toNat = some i ∧
      i.len = hd.pourLen.toNat ∧ (hd.last = true → i.last = true) ∧ (data ≠ [] → Map.look i.data hd.offset.toNat = some data) := by
  obtain ⟨q, hq, hin⟩ := Die.openPour_setInput (x := x) (k := k) (pl := pl) (n := n) part hd.pos.toNat (hd.input mark data) x.now w
  refine ⟨q, _, hq, hin, rfl, fun hlast => by simp [BlendHead.input, hlast], fun hne => ?_⟩
  have hempty : data.isEmpty = false := by simpa using hne
  simp [BlendHead.input, hempty]

/-- What the home die holds of a contribution relayed to it. -/
theorem Die.relayedInput_input (part : BitVec 4) (p : Nat) (hd : BlendHead) (data : List Byte) (mark : Bool) (w : Option Parked) :
    ∃ q i, (x.relayedInput k part p hd data mark w).pourAt k .level1 = some q ∧ Map.look q.inputs (hd.pos.toNat % 32) = some i ∧
      i.len = hd.pourLen.toNat ∧ (hd.last = true → i.last = true) := by
  obtain ⟨q, hq, hin⟩ := Die.openPour_setInput (x := x) (k := k) (pl := .level1) (n := 0) part (hd.pos.toNat % 32)
    (hd.relayed p mark data) (x.openPour k part .level1 0).now w
  exact ⟨q, _, hq, hin, rfl, fun hlast => by simp [BlendHead.relayed, hlast]⟩

/-- The bytes kept of the contribution at a position. -/
def Die.keptAt (x : Die) (k : PourKey) (pos : Nat) : Nat :=
  match Map.look (x.inputsAt k .level1 0) pos with | some i => i.len | none => 0

/-- What the home die holds of a contribution after one more packet of it (R267, R268). -/
theorem Die.takeContribution_input (part : BitVec 4) (rank p cap : Nat) (data : List Byte) (last mark : Bool) (w : Option Parked) :
    ∃ q i, (x.takeContribution k part rank p cap data last mark w).pourAt k .level1 = some q ∧
      Map.look q.inputs (rank % 32) = some i ∧
      i.len = x.keptAt k (rank % 32) + min data.length (cap - x.keptAt k (rank % 32)) ∧ i.last = last := by
  obtain ⟨q, hq, hin⟩ := Die.openPour_setInput (x := x) (k := k) (pl := .level1) (n := 0) part (rank % 32)
    (contributed rank p cap data last mark) (x.openPour k part .level1 0).now w
  refine ⟨q, _, hq, hin, ?_, rfl⟩
  have hkept : (Map.lookD (x.inputsAt k .level1 0) (rank % 32) { pos := rank % 32, rank := rank, inPort := p }).len =
      x.keptAt k (rank % 32) := by
    rw [Die.keptAt, Map.lookD]
    cases Map.look (x.inputsAt k .level1 0) (rank % 32) <;> rfl
  simp only [contributed, Input.add, hkept]

/-- A member whose contribution is not relayed has given what the home die holds of it. -/
theorem Die.runSoFar_home {rank : Nat} (h : x.relayUps.find? (fun o => o.key == k && o.rank == rank) = none) :
    (x.runSoFar k rank).1 = x.keptAt k (rank % 32) := by
  unfold Die.runSoFar Die.keptAt Die.inputsAt
  rw [h]
  dsimp only
  cases x.pourAt k .level1 with
  | none => rfl
  | some q =>
    dsimp only
    cases Map.look q.inputs (rank % 32) <;> rfl

end At

end Sys2Proof.Machine
end

section
/-! SUPPORT. The four stages: what they leave alone, and that the pour whose stage has run has started or is gone (spec/07 R274 to R280, R297). -/

namespace Sys2Proof.Machine

theorem Pour.keeps_start : Pour.Keeps Pour.start := fun _ => ⟨rfl, rfl, rfl⟩

/-! ### No pour at a place waits for its stage -/

/-- Every pour of a name at a place has started. -/
def Die.AllStarted (x : Die) (k : PourKey) (pl : Place) (n : Nat) : Prop :=
  ∀ q ∈ x.pours, q.isAt k pl n = true → q.started = true

section Die
variable {x y : Die} {k j : PourKey} {pl pm : Place} {n m : Nat}

theorem Die.AllStarted.of_pours_eq (h : x.AllStarted k pl n) (he : y.pours = x.pours) : y.AllStarted k pl n := by
  unfold Die.AllStarted
  rwa [he]

theorem Die.AllStarted.filter (h : x.AllStarted k pl n) {p : Pour → Bool} (he : y.pours = x.pours.filter p) : y.AllStarted k pl n := by
  intro q hq
  rw [he] at hq
  exact h q (List.mem_filter.1 hq).1

/-- A change of some pours that leaves names, places and what has started. -/
theorem Die.AllStarted.map (h : x.AllStarted k pl n) {p : Pour → Bool} {f : Pour → Pour} (hf : Pour.Keeps f)
    (hs : ∀ q, q.started = true → (f q).started = true) (he : y.pours = x.pours.map fun q => if p q then f q else q) :
    y.AllStarted k pl n := by
  intro q hq hat
  rw [he] at hq
  obtain ⟨r, hr, rfl⟩ := List.mem_map.1 hq
  by_cases hp : p r = true
  · rw [if_pos hp] at hat ⊢
    exact hs r (h r hr (by rwa [hf.isAt] at hat))
  · rw [if_neg hp] at hat ⊢
    exact h r hr hat

theorem Die.AllStarted.modPour (h : x.AllStarted k pl n) {f : Pour → Pour} (hf : Pour.Keeps f)
    (hs : ∀ q, q.started = true → (f q).started = true) : (x.modPour j pm m f).AllStarted k pl n := h.map hf hs rfl

/-- Once the stage has started there, no pour at the place waits for it. -/
theorem Die.allStarted_start : (x.modPour k pl n Pour.start).AllStarted k pl n := by
  intro q hq hat
  obtain ⟨r, -, rfl⟩ := List.mem_map.1 hq
  by_cases hr : r.isAt k pl n = true
  · have : (r.key == k && r.place == pl && r.slot == n) = true := hr
    simp [this, Pour.start]
  · have hno : ¬(r.key == k && r.place == pl && r.slot == n) = true := hr
    rw [if_neg hno] at hat
    exact absurd hat hr

theorem Die.AllStarted.givePot (h : x.AllStarted k pl n) (part : BitVec 4) (stage : Bool) :
    (x.givePot j part pm m stage).AllStarted k pl n := by
  rcases x.givePot_cases j part pm m stage with he | ⟨i, he⟩ <;> rw [he]
  · exact h
  · exact (h.of_pours_eq rfl).modPour (Pour.keeps_takePot i) fun _ hq => hq

theorem Die.AllStarted.waitPot (h : x.AllStarted k pl n) (q : Pour) : (x.waitPot q).AllStarted k pl n := by
  unfold Die.waitPot
  split
  · exact h
  · exact (h.of_pours_eq rfl).modPour (fun _ => ⟨rfl, rfl, rfl⟩) fun _ hq => hq

/-- An input for one place begins no pour at another. -/
theorem Die.AllStarted.takeInput (h : x.AllStarted k pl n) (hne : pm ≠ pl) (part : BitVec 4) (hd : BlendHead) (mark : Bool)
    (data : List Byte) (w : Option Parked) : (x.takeInput j part pm m hd mark data w).AllStarted k pl n := by
  refine Die.AllStarted.modPour ?_ (fun _ => ⟨rfl, rfl, rfl⟩) fun _ hq => hq
  unfold Die.openPour
  split
  · exact h
  · refine Die.AllStarted.givePot (fun q hq hat => ?_) part false
    rcases List.mem_append.1 hq with hq | hq
    · exact h q hq hat
    · rw [List.mem_singleton.1 hq] at hat
      exact absurd (Pour.isAt_iff.1 hat).2.1 hne

theorem Die.AllStarted.placeDone (h : x.AllStarted k pl n) (j : PourKey) (pm : Place) : (x.placeDone j pm).AllStarted k pl n := by
  unfold Die.placeDone
  extract_lets here y
  have hy : y.pours = x.pours :=
    Die.eq_of_beside (Die.beside_foldl (fun z (q : Pour) => Die.freePot_besidePots (x := z) q.pot) _) (·.pours) fun _ => rfl
  have hstarted := h.of_pours_eq hy
  split
  · exact h
  · cases pm with
    | level1 => exact hstarted.map (f := fun q => { q with pot := none }) (fun _ => ⟨rfl, rfl, rfl⟩) (fun _ hq => hq) rfl
    | level2 => exact hstarted.filter rfl
    | level3 => exact hstarted.filter rfl
    | delivery => exact hstarted.filter rfl

end Die

/-! ### Stages -/

section Stages
variable {s t : State} {d : DieId} {q : Pour} {k : PourKey} {pl : Place} {n : Nat}

theorem State.Beside.allStarted (h : s.Beside Die.besideSent d t) (hs : (s.die d).AllStarted k pl n) : (t.die d).AllStarted k pl n :=
  hs.of_pours_eq (h.eq (·.pours) fun _ => rfl)

/-- The stage of a place, once begun, leaves no pour there that waits for it: all have started, or none has a record that keeps it from
being aborted. -/
def Die.MayEnd (x : Die) (k : PourKey) (pl : Place) (n : Nat) : Prop := x.AllStarted k pl n ∨ x.record k = none

theorem State.abortPour_allStarted (h : (s.die d).MayEnd k pl n) (status : BitVec 4) (heads mark : Bool) :
    ((s.abortPour d k status heads mark).die d).AllStarted k pl n := by
  cases hrec : (s.die d).record k with
  | some r =>
    rw [State.abortPour_recorded hrec]
    exact h.resolve_right (by simp [hrec])
  | none => exact fun q hq hat => (State.abortPour_ends hrec status heads mark q hq (Pour.isAt_iff.1 hat).1).2

theorem State.stage1_spec : s.Beside Die.besidePours d (s.stage1 d q) ∧
    ((s.die d).MayEnd q.key .level1 0 → ((s.stage1 d q).die d).AllStarted q.key .level1 0) := by
  unfold State.stage1
  extract_lets g b o hd own t
  split
  · exact ⟨State.beside_abortPour .., fun h => State.abortPour_allStarted h _ _ _⟩
  · next root _ =>
    extract_lets near
    have ht : s.Beside Die.besidePours d t := .modDie rfl
    have hstart : (t.die d).AllStarted q.key .level1 0 := by
      rw [State.die_modDie]
      exact Die.allStarted_start
    split
    · refine ⟨ht.trans (.modDie (by simp)), fun _ => ?_⟩
      rw [State.die_modDie]
      exact (hstart.takeInput (by decide) _ _ _ _ _).placeDone _ _
    · split
      · exact ⟨ht.trans (State.beside_abortPour ..), fun _ => State.abortPour_allStarted (.inl hstart) _ _ _⟩
      · next port _ =>
        have hsend : t.Beside Die.besideSent d (t.modDie d fun x => (if near then x else x.noteRelay q.key 1 root port).sendStream port q.key
            q.part 1 (some root) hd 0 o.1 q.mark (some (q.key, .level1))) := by
          refine .modDie ?_
          rw [Die.sendStream_besideSent]
          split
          · rfl
          · exact Die.noteRelay_besideSent ..
        exact ⟨ht.trans hsend.pours, fun _ => hsend.allStarted hstart⟩

/-- The stage of level 2 aborts its pour, or starts it and sends its output. -/
theorem State.stage2_cases : s.stage2 d q = s.abortPour d q.key 3 ∨
    (s.modDie d fun x => x.modPour q.key .level2 0 Pour.start).Beside Die.besideSent d (s.stage2 d q) := by
  unfold State.stage2
  extract_lets x c o hd ports down unit
  split
  · exact .inl rfl
  · exact .inr (.modDie_modDie (Die.beside_foldl (fun _ _ => Die.sendPieces_besideSent ..) _))

/-- The stage of level 3 aborts its pour, or starts it and sends its output. -/
theorem State.stage3_cases : s.stage3 d q = s.abortPour d q.key 3 ∨
    (s.modDie d fun x => x.modPour q.key .level3 q.slot Pour.start).Beside Die.besideSent d (s.stage3 d q) := by
  unfold State.stage3
  extract_lets x g c o hd homes
  split
  · exact .inl rfl
  · exact .inr (.modDie_modDie (Die.beside_foldl (fun _ _ => Die.sendPieces_besideSent ..) _))

/-- A stage that aborts its pour, or starts it and sends its output, leaves no pour at its place that waits for it. -/
theorem State.spec_of_stage_cases (h : t = s.abortPour d k 3 ∨
    (s.modDie d fun x => x.modPour k pl n Pour.start).Beside Die.besideSent d t) :
    s.Beside Die.besidePours d t ∧ ((s.die d).MayEnd k pl n → (t.die d).AllStarted k pl n) := by
  rcases h with rfl | h
  · exact ⟨State.beside_abortPour .., fun h => State.abortPour_allStarted h _ _ _⟩
  · refine ⟨(State.Beside.modDie rfl).trans h.pours, fun _ => h.allStarted ?_⟩
    rw [State.die_modDie]
    exact Die.allStarted_start

theorem State.deliver4_spec : s.Beside Die.besidePours d (s.deliver4 d q) ∧ ((s.deliver4 d q).die d).AllStarted q.key .delivery 0 := by
  unfold State.deliver4
  extract_lets x c ps share total ins t u
  have ht : s.Beside Die.besidePours d t := .modDie rfl
  have hstart : (t.die d).AllStarted q.key .delivery 0 := by
    rw [State.die_modDie]
    exact Die.allStarted_start
  have hu : t.Beside Die.besideSent d u := by
    refine .foldl (fun v r => ?_) _ t
    dsimp only
    split
    · exact State.beside_sendMember ..
    · exact .refl v
  refine ⟨(ht.trans hu.pours).trans (.modDie (by simp)), ?_⟩
  rw [State.die_modDie]
  exact (hu.allStarted hstart).placeDone _ _

theorem State.beside_runStage : s.Beside Die.besidePours d (s.runStage d q) := by
  unfold State.runStage
  split
  · exact State.stage1_spec.1
  · exact (State.spec_of_stage_cases State.stage2_cases).1
  · exact (State.spec_of_stage_cases State.stage3_cases).1
  · exact State.deliver4_spec.1

/-- The stage of a place leaves no pour there that waits for it: at level 3 of its slot, elsewhere of slot 0, the only one. -/
theorem State.runStage_allStarted (h3 : q.place = .level3 → q.slot = n) (h0 : q.place ≠ .level3 → n = 0)
    (h : (s.die d).MayEnd q.key q.place n) : ((s.runStage d q).die d).AllStarted q.key q.place n := by
  unfold State.runStage
  cases hpl : q.place <;> rw [hpl] at h
  case level3 =>
    obtain rfl := h3 hpl
    exact (State.spec_of_stage_cases State.stage3_cases).2 h
  all_goals obtain rfl : n = 0 := h0 (by simp [hpl])
  case level1 => exact State.stage1_spec.2 h
  case level2 => exact (State.spec_of_stage_cases State.stage2_cases).2 h
  case delivery => exact State.deliver4_spec.2

end Stages

end Sys2Proof.Machine
end

section
/-! SUPPORT. BLEND_STAGE_START: the pours of a name at a place, one after another (spec/07 R289, R291, R297). -/

namespace Sys2Proof.Machine
variable {s : State} {d : DieId} {k : PourKey} {pl : Place} {n m : Nat} {q r : Pour}

/-- The pour has its inputs, its stage has not started, and its last input came before this tick (R80, R297). -/
def Die.ready (x : Die) (k : PourKey) (q : Pour) : Bool :=
  !q.started && q.complete (x.view.group k.group.toNat).control && later x.now q.lastIn

theorem State.Beside.ready {t : State} (h : s.Beside Die.besidePours d t) (k : PourKey) (q : Pour) :
    (t.die d).ready k q = (s.die d).ready k q := h.eq (·.ready k q) fun _ => rfl

/-- The state in which a pour begins its stage on a die, its slip counted and a free value drawn (R297). -/
abbrev State.begun (s : State) (d : DieId) (z : Die) (r : Pour) : State :=
  (s.setDie d (z.count (cDie 4 1) ((s.setDie d z).slipped d r).toNat)).withFree (s.free + 1)

/-! ### One pour -/

theorem State.startStage_none (hq : (s.die d).pourAt k pl n = none) : s.startStage d k pl n = s := by
  simp [State.startStage, hq]

/-- The start of a stage, of a pour that has (or has not) been given its pot. -/
theorem State.startStage_some (hq : (s.die d).pourAt k pl n = some q)
    (hr : ((s.die d).givePot k q.part pl n true).pourAt k pl n = some r) :
    s.startStage d k pl n =
      if (s.die d).ready k q = false then s
      else if needsPot k pl && r.pot.isNone then s.setDie d (((s.die d).givePot k q.part pl n true).waitPot r)
      else (s.begun d ((s.die d).givePot k q.part pl n true) r).runStage d r := by
  have hnot : (q.started || !q.complete ((s.die d).view.group k.group.toNat).control || !later (s.die d).now q.lastIn) =
      !(s.die d).ready k q := by
    simp [Die.ready, Bool.not_and]
  simp only [State.startStage, hq, hnot, Bool.not_eq_true', State.modDie, State.die_setDie, State.setDie_setDie, State.setDie_free, hr]
  rfl

theorem State.startStage_unready (h : ∀ q, (s.die d).pourAt k pl n = some q → (s.die d).ready k q = false) :
    s.startStage d k pl n = s := by
  cases hq : (s.die d).pourAt k pl n with
  | none => exact State.startStage_none hq
  | some q =>
    obtain ⟨i, l, hr⟩ := Die.pourAt_givePot hq q.part true
    rw [State.startStage_some hq hr, if_pos (h q hq)]

section Ready
variable (hq : (s.die d).pourAt k pl n = some q) (hready : (s.die d).ready k q = true)
  (hr : ((s.die d).givePot k q.part pl n true).pourAt k pl n = some r)
include hq hready hr

theorem State.startStage_waits (hneeds : needsPot k pl = true) (hpot : r.pot = none) :
    s.startStage d k pl n = s.setDie d (((s.die d).givePot k q.part pl n true).waitPot r) := by
  rw [State.startStage_some hq hr, if_neg (by simp [hready]), if_pos (by simp [hneeds, hpot])]

theorem State.startStage_runs (hpot : needsPot k pl = true → r.pot.isSome = true) :
    s.startStage d k pl n = (s.begun d ((s.die d).givePot k q.part pl n true) r).runStage d r := by
  rw [State.startStage_some hq hr, if_neg (by simp [hready]), if_neg (by simpa [← Option.isSome_iff_ne_none] using hpot)]

end Ready

/-- The start of a stage does nothing, leaves a pour waiting for its pot, or runs the stage. -/
theorem State.startStage_cases (s : State) (d : DieId) (k : PourKey) (pl : Place) (n : Nat) :
    s.startStage d k pl n = s ∨ ∃ q r, (s.die d).pourAt k pl n = some q ∧ (s.die d).ready k q = true ∧
      ((s.die d).givePot k q.part pl n true).pourAt k pl n = some r ∧
      ((needsPot k pl = true ∧ r.pot = none ∧
          s.startStage d k pl n = s.setDie d (((s.die d).givePot k q.part pl n true).waitPot r)) ∨
        s.startStage d k pl n = (s.begun d ((s.die d).givePot k q.part pl n true) r).runStage d r) := by
  cases hq : (s.die d).pourAt k pl n with
  | none => exact .inl (State.startStage_none hq)
  | some q =>
    obtain ⟨i, l, hr⟩ := Die.pourAt_givePot hq q.part true
    cases hready : (s.die d).ready k q with
    | false => exact .inl (by rw [State.startStage_some hq hr, if_pos hready])
    | true =>
      refine .inr ⟨q, _, rfl, hready, hr, ?_⟩
      by_cases hwaits : needsPot k pl = true ∧ i = none
      · obtain ⟨hneeds, hi⟩ := hwaits
        exact .inl ⟨hneeds, hi, State.startStage_waits hq hready hr hneeds hi⟩
      · exact .inr (State.startStage_runs hq hready hr fun hneeds => Option.isSome_iff_ne_none.2 fun hi => hwaits ⟨hneeds, hi⟩)

theorem State.begun_die (z : Die) : (s.begun d z r).die d = z.count (cDie 4 1) ((s.setDie d z).slipped d r).toNat := by
  rw [State.withFree_die, State.die_setDie]

theorem State.beside_setDie {z : Die} {f : Die → Die} (h : f z = f (s.die d)) : s.Beside f d (s.setDie d z) :=
  State.Beside.modDie (g := fun _ => z) h

theorem State.beside_begun {z : Die} (h : z.besidePours = (s.die d).besidePours) : s.Beside Die.besidePours d (s.begun d z r) := by
  obtain ⟨hdie, hothers, hboot, htok, hfuse⟩ : s.Beside Die.besidePours d
    (s.setDie d (z.count (cDie 4 1) ((s.setDie d z).slipped d r).toNat)) := State.beside_setDie h
  exact ⟨by rwa [State.withFree_die], fun e he => by rw [State.withFree_die, hothers e he], hboot, htok, hfuse⟩

theorem State.beside_startStage : s.Beside Die.besidePours d (s.startStage d k pl n) := by
  rcases s.startStage_cases d k pl n with h | ⟨q, r, -, -, -, ⟨-, -, h⟩ | h⟩ <;> rw [h]
  · exact .refl s
  · exact State.beside_setDie (by simp)
  · exact (State.beside_begun (Die.givePot_besidePours ..)).trans State.beside_runStage

/-! ### The pours of a place -/

/-- A pour stands at its place, and the die has no record of it. -/
def Die.Waiting (x : Die) (k : PourKey) (pl : Place) (n : Nat) (q : Pour) : Prop := x.pourAt k pl n = some q ∧ x.record k = none

theorem Die.waitPot_pourAt_ne {x : Die} (hn : n ≠ q.slot) : (x.waitPot q).pourAt k pl n = x.pourAt k pl n := by
  unfold Die.waitPot
  split
  · rfl
  · exact Die.pourAt_modPour_ne (fun _ => ⟨rfl, rfl, rfl⟩) fun ⟨_, _, he⟩ => hn he

theorem Die.waitPot_record (x : Die) (q : Pour) (k : PourKey) : (x.waitPot q).record k = x.record k := by
  unfold Die.waitPot
  split <;> rfl

theorem State.runStage_level3 (h : q.place = .level3) : s.runStage d q = s.stage3 d q := by simp [State.runStage, h]

/-- The stage of another slot of level 3 leaves what has started at a slot. -/
theorem State.stage3_allStarted_other (h : (s.die d).AllStarted q.key .level3 n) : ((s.stage3 d q).die d).AllStarted q.key .level3 n := by
  rcases State.stage3_cases (s := s) (d := d) (q := q) with he | hb
  · rw [he]
    exact State.abortPour_allStarted (.inl h) _ _ _
  · refine hb.allStarted ?_
    rw [State.die_modDie]
    exact h.modPour Pour.keeps_start fun _ _ => rfl

/-- The stage of another slot of level 3 leaves a pour waiting at a slot, or aborts it. -/
theorem State.stage3_waiting_other (hn : n ≠ q.slot) (h : (s.die d).Waiting q.key .level3 n r) :
    ((s.stage3 d q).die d).AllStarted q.key .level3 n ∨ ((s.stage3 d q).die d).Waiting q.key .level3 n r := by
  obtain ⟨hat, hrec⟩ := h
  rcases State.stage3_cases (s := s) (d := d) (q := q) with he | hb
  · rw [he]
    exact .inl (State.abortPour_allStarted (.inr hrec) _ _ _)
  · refine .inr ⟨?_, ?_⟩
    · rw [hb.eq (·.pourAt q.key .level3 n) fun _ => rfl, State.die_modDie,
        Die.pourAt_modPour_ne Pour.keeps_start fun ⟨_, _, he⟩ => hn he, hat]
    · rw [hb.record, State.die_modDie]
      exact hrec

section Slots
variable (h0 : pl ≠ .level3 → n = 0)
include h0

theorem State.startStage_allStarted (h : (s.die d).AllStarted k pl n) : ((s.startStage d k pl m).die d).AllStarted k pl n := by
  rcases s.startStage_cases d k pl m with he | ⟨q, r, -, -, hr, ⟨-, -, he⟩ | he⟩ <;> rw [he]
  · exact h
  · rw [State.die_setDie]
    exact (h.givePot _ _).waitPot r
  · obtain ⟨-, rfl, rfl, rfl⟩ := Die.pourAt_mem hr
    have hb : ((s.begun d ((s.die d).givePot r.key q.part r.place r.slot true) r).die d).AllStarted r.key r.place n := by
      rw [State.begun_die]
      exact (h.givePot q.part true).of_pours_eq rfl
    by_cases hpl : r.place = .level3
    · rw [State.runStage_level3 hpl]
      rw [hpl] at hb ⊢
      exact State.stage3_allStarted_other hb
    · exact State.runStage_allStarted (fun h3 => absurd h3 hpl) h0 (.inl hb)

section Waiting
variable (hpot : needsPot k pl = true → q.pot.isSome = true) (hw : (s.die d).Waiting k pl n q)
include hw

/-- Starting another slot leaves a pour waiting, or starts or ends it. -/
theorem State.startStage_waiting_other (hm : n ≠ m) :
    ((s.startStage d k pl m).die d).AllStarted k pl n ∨ ((s.startStage d k pl m).die d).Waiting k pl n q := by
  obtain ⟨hat, hrec⟩ := hw
  rcases s.startStage_cases d k pl m with he | ⟨p, r, -, -, hr, ⟨-, -, he⟩ | he⟩ <;> rw [he]
  · exact .inr ⟨hat, hrec⟩
  · obtain ⟨-, -, -, hslot⟩ := Die.pourAt_mem hr
    refine .inr ⟨?_, ?_⟩
    · rw [State.die_setDie, Die.waitPot_pourAt_ne fun hs => hm (hs.trans hslot), Die.pourAt_givePot_ne p.part true hm, hat]
    · rw [State.die_setDie, Die.waitPot_record, Die.givePot_record, hrec]
  · obtain ⟨-, rfl, rfl, rfl⟩ := Die.pourAt_mem hr
    have hb : ((s.begun d ((s.die d).givePot r.key p.part r.place r.slot true) r).die d).Waiting r.key r.place n q := by
      rw [State.begun_die]
      exact ⟨(Die.pourAt_givePot_ne p.part true hm).trans hat, (Die.givePot_record p.part true r.key).trans hrec⟩
    by_cases hpl : r.place = .level3
    · rw [State.runStage_level3 hpl]
      rw [hpl] at hb ⊢
      exact State.stage3_waiting_other hm hb
    · exact .inl (State.runStage_allStarted (fun h3 => absurd h3 hpl) h0 (.inr hb.2))

include hpot

/-- A pour with its inputs and its pot starts, or ends. -/
theorem State.startStage_starts (hready : (s.die d).ready k q = true) : ((s.startStage d k pl n).die d).AllStarted k pl n := by
  obtain ⟨hat, hrec⟩ := hw
  have hgive : (s.die d).givePot k q.part pl n true = s.die d := Die.givePot_eq_self hat hpot q.part true
  rw [State.startStage_runs hat hready (by rw [hgive, hat]) hpot, hgive]
  obtain ⟨-, rfl, rfl, rfl⟩ := Die.pourAt_mem hat
  refine State.runStage_allStarted (fun _ => rfl) h0 (.inr ?_)
  rw [State.begun_die]
  exact hrec

end Waiting

end Slots

/-- The stages of a list of slots, one after another. -/
def State.startStages (s : State) (d : DieId) (k : PourKey) (pl : Place) (l : List Nat) : State :=
  l.foldl (fun (t : State) n => t.startStage d k pl n) s

theorem State.beside_startStages (l : List Nat) : s.Beside Die.besidePours d (s.startStages d k pl l) :=
  .foldl (fun _ _ => State.beside_startStage) _ s

theorem State.startStages_unready {l : List Nat}
    (h : ∀ n ∈ l, ∀ q, (s.die d).pourAt k pl n = some q → (s.die d).ready k q = false) : s.startStages d k pl l = s := by
  induction l with
  | nil => rfl
  | cons n l ih =>
    obtain ⟨hn, hl⟩ := List.forall_mem_cons.1 h
    rw [State.startStages, List.foldl_cons, State.startStage_unready hn]
    exact ih hl

/-- Once every slot of a place has had its turn, a pour that was ready, with its pot, has started or is gone. -/
theorem State.startStages_allStarted (h0 : pl ≠ .level3 → n = 0) (hpot : needsPot k pl = true → q.pot.isSome = true) (l : List Nat)
    (hready : (s.die d).ready k q = true)
    (h : (s.die d).AllStarted k pl n ∨ (n ∈ l ∧ (s.die d).Waiting k pl n q)) : ((s.startStages d k pl l).die d).AllStarted k pl n := by
  induction l generalizing s with
  | nil => exact h.resolve_right fun h => List.not_mem_nil h.1
  | cons m l ih =>
    have hready' : ((s.startStage d k pl m).die d).ready k q = true := by rw [State.beside_startStage.ready, hready]
    refine ih hready' ?_
    rcases h with h | ⟨hmem, hw⟩
    · exact .inl (State.startStage_allStarted h0 h)
    · by_cases hm : n = m
      · subst hm
        exact .inl (State.startStage_starts h0 hpot hw hready)
      · have hl : n ∈ l := (List.mem_cons.1 hmem).resolve_left hm
        exact (State.startStage_waiting_other h0 hw hm).imp_right fun hw => ⟨hl, hw⟩

end Sys2Proof.Machine
end

section
/-! SUPPORT. The boundary commands of pours and of zeroing on a powered die (spec/07 R271, R290, R295, R297, spec/10 R361, R364 to R367). -/

namespace Sys2Proof.Machine
variable {s : State} {d : DieId} {x : Die}

theorem State.fresh_setDie_die (s : State) (d : DieId) : s.fresh.setDie d (s.die d) = s.fresh := by
  rw [← s.fresh_die d, State.setDie_die]

/-! ### Pours -/

section Pours
variable {k : PourKey} {pl : Place}

/-- A pour at a place is late: without its inputs after `POUR_TIMEOUT` (R295). -/
def Die.late (x : Die) (k : PourKey) (pl : Place) (q : Pour) : Bool :=
  let c := (x.view.group k.group.toNat).control
  q.key == k && q.place == pl && !q.started && !q.complete c && reached x.now (q.first + BitVec.ofNat 48 (gTimeout c))

/-- The slots of the pours of a name at a place. -/
def Die.slotsAt (x : Die) (k : PourKey) (pl : Place) : List Nat := (x.pours.filter fun q => q.key == k && q.place == pl).map (·.slot)

theorem Die.mem_slotsAt {n : Nat} {q : Pour} (h : x.pourAt k pl n = some q) : n ∈ x.slotsAt k pl := by
  obtain ⟨hq, rfl, rfl, rfl⟩ := Die.pourAt_mem h
  exact List.mem_map.2 ⟨q, by simp [hq], rfl⟩

/-- The die keeps nothing of an ended pour whose record is over (R271). -/
def Die.forget (x : Die) (k : PourKey) : Die :=
  { x with aborts := x.aborts.filter fun r => r.key != k, relays := x.relays.filter fun r => r.key != k,
           relayUps := x.relayUps.filter fun r => r.key != k, relayDowns := x.relayDowns.filter fun r => r.key != k }

theorem exec_abortRecordExpiry_early (h : ∀ r ∈ (s.die d).aborts, r.key = k → reached (s.die d).now r.until_ = false) :
    exec (.abortRecordExpiry d k) s = .next s.fresh := by
  show execAbortRecordExpiry d k s = _
  have hno : ¬((s.die d).aborts.any fun r => r.key == k && reached (s.die d).now r.until_) = true := by
    intro hany
    obtain ⟨r, hr, hkey⟩ := List.any_eq_true.1 hany
    simp only [Bool.and_eq_true, beq_iff_eq] at hkey
    exact Bool.false_ne_true ((h r hr hkey.1).symm.trans hkey.2)
  simp [execAbortRecordExpiry, State.modDie, hno, State.fresh_setDie_die]

theorem exec_pourTimeout_early (h : ∀ q ∈ (s.die d).pours, (s.die d).late k pl q = false) :
    exec (.pourTimeout d k pl) s = .next s.fresh := by
  show execPourTimeout d k pl s = _
  have hno : (s.die d).pours.any ((s.die d).late k pl) = false := List.any_eq_false.2 fun q hq => by simp [h q hq]
  unfold Die.late at hno
  simp [execPourTimeout, hno]

variable (hon : (s.die d).on = true)
include hon

theorem exec_blendStageStart : exec (.blendStageStart d k pl) s = .next (s.fresh.startStages d k pl ((s.die d).slotsAt k pl)) := by
  show execBlendStageStart d k pl s = _
  simp [execBlendStageStart, hon, State.startStages, Die.slotsAt]

theorem exec_pourTimeout_late (h : ∃ q ∈ (s.die d).pours, (s.die d).late k pl q = true) :
    exec (.pourTimeout d k pl) s = .next (s.fresh.abortPour d k 4) := by
  show execPourTimeout d k pl s = _
  have hlate : (s.die d).pours.any ((s.die d).late k pl) = true := List.any_eq_true.2 h
  unfold Die.late at hlate
  simp [execPourTimeout, hon, hlate]

theorem exec_abortRecordExpiry_due (h : ∃ r ∈ (s.die d).aborts, r.key = k ∧ reached (s.die d).now r.until_ = true) :
    exec (.abortRecordExpiry d k) s = .next (s.fresh.modDie d (·.forget k)) := by
  show execAbortRecordExpiry d k s = _
  have hdue : ((s.die d).aborts.any fun r => r.key == k && reached (s.die d).now r.until_) = true := by
    obtain ⟨r, hr, hkey, hover⟩ := h
    exact List.any_eq_true.2 ⟨r, hr, by simp [hkey, hover]⟩
  simp [execAbortRecordExpiry, State.modDie, hon, hdue, Die.forget]

end Pours

/-! ### Zeroing -/

/-- A table in which a change that may be made again is made at each of some keys. -/
theorem Map.lookD_foldl_upd {α : Type} (b : α) {g : Nat → α → α} (hg : ∀ n a, g n (g n a) = g n a) (l : List Nat) (m : Map α) (n : Nat) :
    Map.lookD (l.foldl (fun m i => Map.upd m i b (g i)) m) n b = if n ∈ l then g n (Map.lookD m n b) else Map.lookD m n b := by
  induction l generalizing m with
  | nil => simp
  | cons i l ih =>
    rw [List.foldl_cons, ih]
    by_cases hn : n = i
    · subst hn
      have hself : Map.lookD (Map.upd m n b (g n)) n b = g n (Map.lookD m n b) := by simp [Map.upd, Map.lookD]
      simp [hself, hg]
    · have hne : Map.lookD (Map.upd m i b (g i)) n b = Map.lookD m n b := Map.lookD_put_ne m _ b hn
      simp [hne, hn]

/-- The zeroing job has ended by this boundary. -/
def Die.jobOver (x : Die) (j : ZeroJob) : Bool := decide (j.endNs ≤ x.now.toNat * x.ns)

/-- Some job of an item has ended, and some has not. -/
def Die.itemEnded (x : Die) (js : List ZeroJob) (n : Nat) : Bool := js.any fun j => j.item == n && x.jobOver j
def Die.itemWaits (x : Die) (js : List ZeroJob) (n : Nat) : Bool := js.any fun j => j.item == n && !x.jobOver j

theorem Die.mem_doneItems (x : Die) (js : List ZeroJob) (n : Nat) :
    n ∈ (x.doneJobs js).1.map (·.item) ↔ x.itemEnded js n = true := by
  simp [Die.doneJobs, Die.itemEnded, Die.jobOver, and_left_comm, and_comm]

theorem Die.doneJobs_waits (x : Die) (js : List ZeroJob) (n : Nat) :
    ((x.doneJobs js).2.any fun j => j.item == n) = x.itemWaits js n := by
  simp only [Die.doneJobs, Die.itemWaits, Die.jobOver, List.any_filter]
  exact congrArg js.any (funext fun j => Bool.and_comm ..)

/-- The pots of which the zeroing has ended are usable (R290). -/
def Die.endPotJobs (x : Die) : Die :=
  { x with
    potJobs := (x.doneJobs x.potJobs).2,
    pots := ((x.doneJobs x.potJobs).1.map (·.item)).foldl (fun m i => Map.upd m i {} fun p =>
      { p with zeroing := x.itemWaits x.potJobs i }) x.pots }

theorem exec_potZeroDone (hon : (s.die d).on = true) : exec (.potZeroDone d) s = .next (s.fresh.modDie d Die.endPotJobs) := by
  show execPotZeroDone d s = _
  simp [execPotZeroDone, State.modDie, hon, Die.endPotJobs, Die.doneJobs_waits, List.foldl_map]

theorem Die.endPotJobs_pot (n : Nat) : x.endPotJobs.pot n =
    { x.pot n with zeroing := if x.itemEnded x.potJobs n then x.itemWaits x.potJobs n else (x.pot n).zeroing } := by
  have h := Map.lookD_foldl_upd (g := fun i (p : Pot) => { p with zeroing := x.itemWaits x.potJobs i }) {} (fun _ _ => rfl)
    ((x.doneJobs x.potJobs).1.map (·.item)) x.pots n
  simp only [Die.mem_doneItems] at h
  refine h.trans ?_
  split <;> rfl

/-! ### Segments -/

/-- A segment that is zeroed counts in the quota of its holder (R106, R367). -/
def Seg.zeroed (g : Seg) : Seg := { g with inQuota := g.owner.isSome && !g.returning }

/-- A segment that is free. -/
def Seg.free (g : Seg) : Seg := { g with owner := none, inQuota := false, returning := false }

/-- The returned segment holds nothing and its zeroing is over (R361, R455). -/
def Die.freeable (x : Die) (n : Nat) : Bool :=
  (x.tab.seg n).returning && (x.view.seg n).returning && x.segUsage n == (0, 0) && !x.segJobs.any fun j => j.item == n

theorem Die.freeReturned_seg (n : Nat) : (x.freeReturned).tab.seg n = if x.freeable n then (x.tab.seg n).free else x.tab.seg n := by
  have hmem : n ∈ (x.tab.segs.filter fun e => x.freeable e.1).map (·.1) ↔ x.freeable n = true := by
    constructor
    · intro h
      obtain ⟨e, he, rfl⟩ := List.mem_map.1 h
      exact (List.mem_filter.1 he).2
    · intro h
      have hret : (x.tab.seg n).returning = true := by
        simp only [Die.freeable, Bool.and_eq_true] at h
        exact h.1.1.1
      cases hlook : Map.look x.tab.segs n with
      | none => simp [Tables.seg, Map.lookD, hlook] at hret
      | some g => exact List.mem_map.2 ⟨(n, g), List.mem_filter.2 ⟨Map.look_mem hlook, h⟩, rfl⟩
  have hfold := Map.lookD_foldl_upd (g := fun _ => Seg.free) {} (fun _ _ => rfl) ((x.tab.segs.filter fun e => x.freeable e.1).map (·.1))
    x.tab.segs n
  simp only [hmem] at hfold
  refine Eq.trans ?_ hfold
  unfold Die.freeReturned
  extract_lets gone
  split
  case isTrue h =>
    have hgone : (x.tab.segs.filter fun e => x.freeable e.1).map (·.1) = [] := List.isEmpty_iff.1 h
    rw [hgone]
    rfl
  case isFalse => rfl

theorem Die.freeReturned_kept : x.freeReturned.segJobs = x.segJobs ∧ x.freeReturned.held = x.held ∧
    x.freeReturned.tab.parts = x.tab.parts := by
  unfold Die.freeReturned
  extract_lets gone
  split <;> exact ⟨rfl, rfl, rfl⟩

/-- The items of the jobs that have ended and that no job waits for. -/
def Die.clearedItems (x : Die) (js : List ZeroJob) : List Nat :=
  ((x.doneJobs js).1.map (·.item)).filter fun n => !x.itemWaits js n

/-- The segments of which the zeroing has ended count in the quota (R367). -/
def Die.endSegJobs (x : Die) : Die :=
  ({ x with segJobs := (x.doneJobs x.segJobs).2 }).modBoth fun t =>
    { t with segs := (x.clearedItems x.segJobs).foldl (fun m i => Map.upd m i {} Seg.zeroed) t.segs }

theorem Die.zeroed_segs (js : List ZeroJob) (m : Map Seg) : (x.doneJobs js).1.foldl (fun m i =>
      if (x.doneJobs js).2.any fun j => j.item == i.item then m
      else Map.upd m i.item {} fun g => { g with inQuota := g.owner.isSome && !g.returning }) m =
    (x.clearedItems js).foldl (fun m i => Map.upd m i {} Seg.zeroed) m := by
  rw [Die.clearedItems, List.foldl_filter, List.foldl_map]
  refine congrArg (fun f => List.foldl f m (x.doneJobs js).1) (funext fun m => funext fun j => ?_)
  rw [Die.doneJobs_waits]
  cases x.itemWaits js j.item <;> rfl

theorem exec_segmentZeroDone (hon : (s.die d).on = true) :
    exec (.segmentZeroDone d) s = .next (s.fresh.modDie d fun x => x.endSegJobs.freeReturned).planPower := by
  show execSegmentZeroDone d s = _
  simp only [execSegmentZeroDone, State.modDie, State.fresh_die, hon, Die.endSegJobs, ← Die.zeroed_segs]
  rfl

theorem Die.endSegJobs_seg (n : Nat) : x.endSegJobs.tab.seg n =
    if x.itemEnded x.segJobs n && !x.itemWaits x.segJobs n then (x.tab.seg n).zeroed else x.tab.seg n := by
  have h := Map.lookD_foldl_upd (g := fun _ => Seg.zeroed) {} (fun _ _ => rfl) (x.clearedItems x.segJobs) x.tab.segs n
  have hmem : n ∈ x.clearedItems x.segJobs ↔ (x.itemEnded x.segJobs n && !x.itemWaits x.segJobs n) = true := by
    rw [Die.clearedItems, List.mem_filter, Die.mem_doneItems, Bool.and_eq_true]
  simp only [hmem] at h
  exact h

/-- The end of zeroing changes no segment but in what counts in the quota, in the tables and in their view. -/
theorem Die.endSegJobs_returning (n : Nat) : (x.endSegJobs.tab.seg n).returning = (x.tab.seg n).returning ∧
    (x.endSegJobs.view.seg n).returning = (x.view.seg n).returning := by
  have h (m : Map Seg) := Map.lookD_foldl_upd (g := fun _ => Seg.zeroed) {} (fun _ _ => rfl) (x.clearedItems x.segJobs) m n
  constructor
  · refine (congrArg Seg.returning (h x.tab.segs)).trans ?_
    split <;> rfl
  · refine (congrArg Seg.returning (h x.view.segs)).trans ?_
    split <;> rfl

theorem Die.freeable_endSegJobs (n : Nat) : x.endSegJobs.freeable n =
    ((x.tab.seg n).returning && (x.view.seg n).returning && x.segUsage n == (0, 0) && !x.itemWaits x.segJobs n) := by
  obtain ⟨htab, hview⟩ := x.endSegJobs_returning n
  rw [Die.freeable, htab, hview, ← Die.doneJobs_waits]
  rfl

/-- A segment that is not returned counts in the quota once its zeroing has ended (R367). -/
theorem Die.segment_zeroed {n : Nat} (h : (x.tab.seg n).returning = false) : x.endSegJobs.freeReturned.tab.seg n =
    { x.tab.seg n with
      inQuota := if x.itemEnded x.segJobs n && !x.itemWaits x.segJobs n then (x.tab.seg n).owner.isSome else (x.tab.seg n).inQuota } := by
  rw [Die.freeReturned_seg, Die.freeable_endSegJobs, h]
  simp only [Bool.false_and, Bool.false_eq_true, if_false]
  rw [Die.endSegJobs_seg]
  split
  · simp [Seg.zeroed, h]
  · rfl

/-- A returned segment that holds nothing, and that no job waits for, is free (R361). -/
theorem Die.segment_freed {n : Nat} (h : (x.tab.seg n).returning = true) (hview : (x.view.seg n).returning = true)
    (hempty : x.segUsage n = (0, 0)) (hjobs : x.itemWaits x.segJobs n = false) :
    x.endSegJobs.freeReturned.tab.seg n = (x.tab.seg n).free := by
  have hfree : x.endSegJobs.freeable n = true := by rw [Die.freeable_endSegJobs, h, hview, hempty, hjobs]; rfl
  rw [Die.freeReturned_seg, if_pos hfree, Die.endSegJobs_seg]
  split <;> rfl

end Sys2Proof.Machine
end

section
/-! SUPPORT. The entry of a partition into OPEN, and fences: what each command does on a powered die (spec/10 R354, spec/16 R570). -/

namespace Sys2Proof.Machine
variable {s t : State} {d : DieId}

/-! ### XOFF where a holder of R635 withholds -/

/-- A fold that makes something hold at one of its steps, from what holds throughout, and that no step unmakes. -/
theorem foldl_makes {α β : Type} {f : β → α → β} {I P : β → Prop} {l : List α} (hI : ∀ b, ∀ a ∈ l, I b → I (f b a))
    (hP : ∀ b, ∀ a ∈ l, P b → P (f b a)) {a : α} (ha : a ∈ l) (hmake : ∀ b, I b → P (f b a)) {b : β}
    (hb : I b) : P (l.foldl f b) := by
  induction l generalizing b with
  | nil => exact absurd ha List.not_mem_nil
  | cons c l ih =>
    obtain ⟨hIc, hIl⟩ := List.forall_mem_cons.1 fun a ha b => hI b a ha
    obtain ⟨-, hPl⟩ := List.forall_mem_cons.1 fun a ha b => hP b a ha
    rw [List.foldl_cons]
    rcases List.mem_cons.1 ha with rfl | ha
    · exact List.foldlRecOn (motive := P) _ _ (hmake b hb) fun b hb c hc => hPl c hc b hb
    · exact ih (fun b a ha => hIl a ha b) (fun b a ha => hPl a ha b) ha (hIc b hb)

/-- Taking XON for one state key gives none for another. -/
theorem Port.holdsXon_of_setXon {q : Port} {key k : Nat} (hkey : key ≤ 128) (h : (q.setXon key false).holdsXon k = true) :
    q.holdsXon k = true := by
  rcases Nat.lt_or_eq_of_le hkey with hlt | rfl
  · rw [Port.holdsXon_setXon q hlt] at h
    split at h
    · exact absurd h Bool.false_ne_true
    · exact h
  · by_cases hk : k = 128
    · subst hk
      exact absurd h Bool.false_ne_true
    · simpa [Port.holdsXon, Port.setXon, hk] using h

/-- XOFF on one port grants XON on none. -/
theorem State.sendXoff_holdsXon_false {p key : Nat} (hkey : key ≤ 128) {r k : Nat} (h : ((s.die d).port r).holdsXon k = false) :
    (((s.sendXoff d p key).die d).port r).holdsXon k = false := by
  by_cases hr : r = p
  · subst hr
    rw [State.sendXoff_port_self]
    refine Bool.eq_false_iff.2 fun hk => ?_
    exact Bool.false_ne_true (h.symm.trans (Port.holdsXon_of_setXon hkey hk))
  · simpa [State.sendXoff, Die.port_modPort_ne _ _ hr] using h

/-- XOFF on a port for one state key, where the port holds XON and a holder of R635 withholds it. -/
def State.xoffKey (d : DieId) (p : Nat) (t : State) (k : Nat) : State :=
  if ((t.die d).port p).holdsXon k && t.withholds d p k then t.sendXoff d p k else t

theorem State.xoffWithheld_eq : s.xoffWithheld d =
    (s.die d).carryPorts.foldl (fun (t : State) p => stateKeys.foldl (State.xoffKey d p) t) s := rfl

theorem State.besideXon_xoffKey (p k : Nat) : t.BesideXon d (t.xoffKey d p k) := by
  unfold State.xoffKey
  split
  · exact State.besideXon_sendXoff p k
  · exact .refl t

theorem State.xoffKey_holdsXon_false (p : Nat) {key : Nat} (hkey : key ≤ 128) {r k : Nat} (h : ((t.die d).port r).holdsXon k = false) :
    (((t.xoffKey d p key).die d).port r).holdsXon k = false := by
  unfold State.xoffKey
  split
  · exact State.sendXoff_holdsXon_false hkey h
  · exact h

/-- A partition that is not OPEN withholds XON on every port (R354, R570). -/
theorem State.withholds_of_not_open {part : BitVec 4} (h : ((t.die d).view.part part.toNat).state ≠ .opened) (p : Nat) {v : Nat} (hv : v < 8) :
    t.withholds d p (8 * part.toNat + v) = true := by
  have hkey : 8 * part.toNat + v ≠ 128 := by omega
  have hdiv : (8 * part.toNat + v) / 8 = part.toNat := by omega
  simp [State.withholds, hkey, hdiv, h]

/-- On every port that carries packets no XON is left for a partition that is not OPEN. -/
theorem State.xoffWithheld_holdsXon {part : BitVec 4} (h : ((s.die d).view.part part.toNat).state ≠ .opened) {p : Nat}
    (hp : p ∈ (s.die d).carryPorts) {v : Nat} (hv : v < 8) :
    (((s.xoffWithheld d).die d).port p).holdsXon (8 * part.toNat + v) = false := by
  have hkey : 8 * part.toNat + v < 128 := by omega
  have hmem : 8 * part.toNat + v ∈ stateKeys := List.mem_range.2 (by omega)
  have hle {k : Nat} (hk : k ∈ stateKeys) : k ≤ 128 := Nat.le_of_lt_succ (List.mem_range.1 hk)
  have htake {q : Nat} (t : State) (ht : s.BesideXon d t) :
      (((t.xoffKey d q (8 * part.toNat + v)).die d).port q).holdsXon (8 * part.toNat + v) = false := by
    have hview : (t.die d).view = (s.die d).view := Die.eq_of_besideXon ht.die (·.view) fun _ => rfl
    have hw := State.withholds_of_not_open (t := t) (d := d) (by rwa [hview]) q hv
    unfold State.xoffKey
    rw [hw, Bool.and_true]
    split
    case isTrue => rw [State.sendXoff_holdsXon q hkey, if_pos ⟨rfl, rfl⟩]
    case isFalse hno => exact Bool.eq_false_iff.2 hno
  rw [State.xoffWithheld_eq]
  refine foldl_makes (I := fun t => s.BesideXon d t) (P := fun t => ((t.die d).port p).holdsXon (8 * part.toNat + v) = false)
    (fun t q _ ht => ht.trans (.foldl (fun _ k => State.besideXon_xoffKey q k) _ t)) (fun t q _ hoff => ?_) hp (fun t ht => ?_) (.refl s)
  · exact List.foldlRecOn (motive := fun u : State => ((u.die d).port p).holdsXon (8 * part.toNat + v) = false) _ _ hoff
      fun u hu k hk => State.xoffKey_holdsXon_false q (hle hk) hu
  · exact foldl_makes (I := fun t => s.BesideXon d t) (P := fun t => ((t.die d).port p).holdsXon (8 * part.toNat + v) = false)
      (fun t k _ ht => ht.trans (State.besideXon_xoffKey p k)) (fun t k hk hoff => State.xoffKey_holdsXon_false p (hle hk) hoff) hmem
      htake ht

/-! ### Commands -/

section Part
variable {part : BitVec 4}

/-- Partition `part` in a state that it enters at this boundary. -/
def Die.enters (x : Die) (part : Nat) (st : PartState) : Die := x.modBoth fun t => t.modPart part fun q => { q with state := st }

/-- A die on which a partition is fenced (R570). -/
def Die.fence (x : Die) (part : Nat) : Die := { x.enters part .fenced with fencedAt := Map.put x.fencedAt part x.now }

/-- A partition as a die fences it: its event and the end of its pours, before XOFF goes out (R570). -/
def State.fencing (s : State) (d : DieId) (part : BitVec 4) : State :=
  (((s.fresh.modDie d (·.fence part.toNat)).raiseDie 0x0B82 d 0xFF (part.setWidth 8) 0xFF 0
    (le 2 ((s.die d).tab.part part.toNat).gen.toNat)).abortAll d 4 fun q => q.part == part).modDie d fun x =>
      { x with touched := setBit x.touched part.toNat false }

theorem exec_partOpenReady_zeroing (h : (s.die d).zeroing part.toNat = true) : exec (.partOpenReady d part) s = .next s.fresh := by
  show execPartOpenReady d part s = _
  simp [execPartOpenReady, h]

theorem exec_partFence_untouched (h : bit (s.die d).touched part.toNat = false) : exec (.partFence d part) s = .next s.fresh := by
  show execPartFence d part s = _
  simp only [execPartFence, State.fresh_die, h, Bool.not_false, Bool.or_true, if_true]

theorem exec_fenceDiscard_early {f : Tick} (hf : Map.look (s.die d).fencedAt part.toNat = some f)
    (h : reached (s.die d).now (f + 64) = false) : exec (.fenceDiscard d part) s = .next s.fresh := by
  show execFenceDiscard d part s = _
  simp only [execFenceDiscard, State.modDie, State.fresh_die, hf, h, Bool.and_false, Bool.false_eq_true, if_false, State.fresh_setDie_die]

variable (hon : (s.die d).on = true)
include hon

theorem exec_partOpenReady_done (hview : ((s.die d).view.part part.toNat).state = .reopening)
    (htab : ((s.die d).tab.part part.toNat).state = .reopening) (h : (s.die d).zeroing part.toNat = false) :
    exec (.partOpenReady d part) s = .next ((s.fresh.modDie d (·.enters part.toNat .opened)).raiseDie 0x0580 d 0xFF (part.setWidth 8)
      0xFF 0 (le 2 ((s.die d).tab.part part.toNat).gen.toNat)) := by
  show execPartOpenReady d part s = _
  simp [execPartOpenReady, hon, hview, htab, h, Die.enters]

theorem exec_fenceDiscard_due {f : Tick} (hf : Map.look (s.die d).fencedAt part.toNat = some f)
    (hst : ((s.die d).tab.part part.toNat).state = .fenced) (h : reached (s.die d).now (f + 64) = true) :
    exec (.fenceDiscard d part) s = .next (s.fresh.modDie d (·.dropPart part.toNat)) := by
  show execFenceDiscard d part s = _
  simp only [execFenceDiscard, State.modDie, State.fresh_die, hon, hf, hst, h, beq_self_eq_true, Bool.and_true, if_true]

variable (htouch : bit (s.die d).touched part.toNat = true)
include htouch

theorem exec_partFence_forgets
    (hst : ((s.die d).tab.part part.toNat).state = .closed ∨ ((s.die d).tab.part part.toNat).state = .fenced) :
    exec (.partFence d part) s =
      .next (s.fresh.setDie d { s.die d with touched := setBit (s.die d).touched part.toNat false }) := by
  show execPartFence d part s = _
  have hstate : (((s.die d).tab.part part.toNat).state != .opened && ((s.die d).tab.part part.toNat).state != .reopening) = true := by
    rcases hst with hst | hst <;> rw [hst] <;> rfl
  simp only [execPartFence, State.modDie, State.fresh_die, hon, htouch, hstate, Bool.not_true, Bool.or_false, Bool.false_eq_true,
    if_false, if_true]

theorem exec_partFence_fences
    (hst : ((s.die d).tab.part part.toNat).state = .opened ∨ ((s.die d).tab.part part.toNat).state = .reopening) :
    exec (.partFence d part) s = .next ((s.fencing d part).xoffWithheld d) := by
  show execPartFence d part s = _
  have hstate : (((s.die d).tab.part part.toNat).state != .opened && ((s.die d).tab.part part.toNat).state != .reopening) = false := by
    rcases hst with hst | hst <;> rw [hst] <;> rfl
  simp only [execPartFence, State.fresh_die, hon, htouch, hstate, Bool.not_true, Bool.or_false, Bool.false_eq_true, if_false]
  rfl

end Part

/-! ### What a fence and an entry into OPEN leave -/

theorem Tables.part_modPart (t : Tables) (p : Nat) (f : Part → Part) : (t.modPart p f).part p = f (t.part p) := by
  simp [Tables.modPart, Tables.part, Map.lookD]

theorem Tables.part_modPart_ne (t : Tables) {p o : Nat} (f : Part → Part) (h : o ≠ p) : (t.modPart p f).part o = t.part o := by
  simp [Tables.modPart, Tables.part, Map.lookD_put_ne _ _ _ h]

/-- Fencing changes a die, beside what pours write, as `Die.fence` says. -/
theorem State.beside_fencing (part : BitVec 4) :
    (s.fresh.modDie d (·.fence part.toNat)).Beside Die.besidePours d (s.fencing d part) :=
  ((State.Beside.of_calm (State.raiseDie_calm ..)).trans (State.beside_abortAll ..)).trans (.modDie rfl)

end Sys2Proof.Machine
end

section
/-! Stages, timeouts and records of pours, zeroing, and fences (O55). -/

namespace Sys2Proof.Machine
variable {s t : State} {d : DieId}

/-- The parts of the tray beside die `d` that the boundary commands of the die leave alone. -/
abbrev State.SameBeside (d : DieId) (s t : State) : Prop := (∀ e, e ≠ d → t.die e = s.die e) ∧ t.tok = s.tok ∧ t.fuse = s.fuse

theorem State.Beside.same {f : Die → Die} (h : s.fresh.Beside f d t) : s.SameBeside d t :=
  ⟨fun e he => (h.others e he).trans (s.fresh_die e), h.tok, h.fuse⟩

theorem State.same_modDie (f : Die → Die) : s.SameBeside d (s.fresh.modDie d f) :=
  State.Beside.same (f := fun _ => {}) (.modDie rfl)

theorem State.same_of_calm {u : State} (h : u.calm = t.calm) (ht : s.SameBeside d t) : s.SameBeside d u := by
  obtain ⟨hothers, htok, hfuse⟩ := ht
  exact ⟨fun e he => (State.die_of_calm h e).trans (hothers e he), (State.tok_of_calm h).trans htok, (State.fuse_of_calm h).trans hfuse⟩

section Pours
variable {k : PourKey} {pl : Place} {n : Nat} {q r : Pour}

/-- BLEND_STAGE_START starts a pour that has its inputs and its pot, or ends it. -/
theorem blendStageStart_starts (hon : (s.die d).on = true) (h0 : pl ≠ .level3 → n = 0) (hq : (s.die d).pourAt k pl n = some q)
    (hready : (s.die d).ready k q = true) :
    ∃ t, exec (.blendStageStart d k pl) s = .next t ∧ s.SameBeside d t ∧ (t.die d).tab = (s.die d).tab ∧
      ((needsPot k pl = true → q.pot.isSome = true) → (s.die d).record k = none →
        ∀ r, (t.die d).pourAt k pl n = some r → r.started = true) := by
  have hb := State.beside_startStages (s := s.fresh) (d := d) (k := k) (pl := pl) ((s.die d).slotsAt k pl)
  refine ⟨_, exec_blendStageStart hon, hb.same, (hb.eq (·.tab) fun _ => rfl).trans (by rw [State.fresh_die]), fun hpot hrec r hat => ?_⟩
  rw [← s.fresh_die d] at hq hready hrec
  have hmem : n ∈ (s.die d).slotsAt k pl := by
    rw [← s.fresh_die d]
    exact Die.mem_slotsAt hq
  obtain ⟨hr, hat⟩ := Die.pourAt_mem hat
  exact State.startStages_allStarted h0 hpot _ hready (.inr ⟨hmem, hq, hrec⟩) r hr (Pour.isAt_iff.2 hat)

theorem blendStageStart_unready (hon : (s.die d).on = true)
    (h : ∀ q ∈ (s.die d).pours, q.key = k → q.place = pl → (s.die d).ready k q = false) :
    exec (.blendStageStart d k pl) s = .next s.fresh := by
  rw [exec_blendStageStart hon, State.startStages_unready fun n _ q hq => ?_]
  rw [State.fresh_die] at hq ⊢
  obtain ⟨hmem, hkey, hpl, -⟩ := Die.pourAt_mem hq
  exact h q hmem hkey hpl

section Single
variable (hon : (s.die d).on = true) (hq : (s.die d).pourAt k pl n = some q)
  (hone : (s.die d).pours.filter (fun q => q.key == k && q.place == pl) = [q])
include hon hq hone

theorem blendStageStart_single : exec (.blendStageStart d k pl) s = .next (s.fresh.startStage d k pl n) := by
  obtain ⟨-, -, -, hslot⟩ := Die.pourAt_mem hq
  rw [exec_blendStageStart hon, Die.slotsAt, hone, List.map_singleton, hslot]
  rfl

variable (hready : (s.die d).ready k q = true) (hr : ((s.die d).givePot k q.part pl n true).pourAt k pl n = some r)
include hready hr

theorem blendStageStart_waits (hneeds : needsPot k pl = true) (hpot : r.pot = none) :
    exec (.blendStageStart d k pl) s = .next (s.fresh.setDie d (((s.die d).givePot k q.part pl n true).waitPot r)) := by
  rw [blendStageStart_single hon hq hone]
  rw [← s.fresh_die d] at hq hready hr ⊢
  rw [State.startStage_waits hq hready hr hneeds hpot]

theorem blendStageStart_runs (hpot : needsPot k pl = true → r.pot.isSome = true) :
    exec (.blendStageStart d k pl) s = .next ((s.fresh.begun d ((s.die d).givePot k q.part pl n true) r).runStage d r) := by
  rw [blendStageStart_single hon hq hone]
  rw [← s.fresh_die d] at hq hready hr ⊢
  rw [State.startStage_runs hq hready hr hpot]

end Single

/-- POUR_TIMEOUT ends a late pour, and records it as TIMEOUT (R295). -/
theorem pourTimeout_ends (hon : (s.die d).on = true) (hlate : ∃ q ∈ (s.die d).pours, (s.die d).late k pl q = true)
    (hrec : (s.die d).record k = none) (ht : gTimeout ((s.die d).view.group k.group.toNat).control ≠ 0) :
    ∃ t r, exec (.pourTimeout d k pl) s = .next t ∧ s.SameBeside d t ∧ (t.die d).tab = (s.die d).tab ∧ (t.die d).record k = some r ∧
      r.status = 4 ∧ ∀ q ∈ (t.die d).pours, q.key = k → q.place = .delivery ∧ q.started = true := by
  have hb := State.beside_abortPour (s := s.fresh) (d := d) k 4 true false
  have htab : ((s.fresh.abortPour d k 4).die d).tab = (s.die d).tab := (hb.eq (·.tab) fun _ => rfl).trans (by rw [State.fresh_die])
  rw [← s.fresh_die d] at hrec ht
  obtain ⟨r, hr, hstatus⟩ := State.abortPour_record hrec 4 true false ht
  exact ⟨_, r, exec_pourTimeout_late hon hlate, hb.same, htab, hr, hstatus, State.abortPour_ends hrec 4 true false⟩

end Pours

/-- PART_FENCE fences a touched partition, and takes XON for it from every port (R570). -/
theorem partFence_fences (hon : (s.die d).on = true) {part : BitVec 4} (htouch : bit (s.die d).touched part.toNat = true)
    (hst : ((s.die d).tab.part part.toNat).state = .opened ∨ ((s.die d).tab.part part.toNat).state = .reopening) :
    ∃ t, exec (.partFence d part) s = .next t ∧ s.SameBeside d t ∧
      (t.die d).tab.part part.toNat = { (s.die d).tab.part part.toNat with state := .fenced } ∧
      (∀ o, o ≠ part.toNat → (t.die d).tab.part o = (s.die d).tab.part o) ∧
      Map.look (t.die d).fencedAt part.toNat = some (s.die d).now ∧
      ∀ e ∈ (s.die d).ports, e.1 < 70 → e.2.carries = true → ∀ v, v < 8 →
        ((t.die d).port e.1).holdsXon (8 * part.toNat + v) = false := by
  have hfenced := State.beside_fencing (s := s) (d := d) part
  have hxoff := State.besideXon_xoffWithheld (s := s.fencing d part) (d := d)
  have hdie : (s.fresh.modDie d (·.fence part.toNat)).die d = (s.die d).fence part.toNat := by rw [State.die_modDie, State.fresh_die]
  have htab : (((s.fencing d part).xoffWithheld d).die d).tab = ((s.die d).fence part.toNat).tab := by
    rw [hxoff.tab, hfenced.eq (·.tab) fun _ => rfl, hdie]
  have hat : (((s.fencing d part).xoffWithheld d).die d).fencedAt = ((s.die d).fence part.toNat).fencedAt := by
    rw [Die.eq_of_besideXon hxoff.die (·.fencedAt) fun _ => rfl, hfenced.eq (·.fencedAt) fun _ => rfl, hdie]
  have hview : ((s.fencing d part).die d).view = ((s.die d).fence part.toNat).view := by
    rw [hfenced.eq (·.view) fun _ => rfl, hdie]
  have hports : ((s.fencing d part).die d).carryPorts = (s.die d).carryPorts := by
    rw [hfenced.eq (·.carryPorts) fun _ => rfl, hdie]
    rfl
  have hsame : s.SameBeside d ((s.fencing d part).xoffWithheld d) := by
    obtain ⟨hothers, htok, hfuse⟩ := s.same_modDie (d := d) (·.fence part.toNat)
    exact ⟨fun e he => (hxoff.others e he).trans ((hfenced.others e he).trans (hothers e he)),
      hxoff.tok.trans (hfenced.tok.trans htok), hxoff.fuse.trans (hfenced.fuse.trans hfuse)⟩
  refine ⟨_, exec_partFence_fences hon htouch hst, hsame, ?_, fun o ho => ?_, ?_, fun e he hlt hcar v hv => ?_⟩
  · rw [htab]
    exact Tables.part_modPart ..
  · rw [htab]
    exact Tables.part_modPart_ne _ _ ho
  · rw [hat]
    exact Map.look_put_self ..
  · refine State.xoffWithheld_holdsXon ?_ ?_ hv
    · rw [hview, show ((s.die d).fence part.toNat).view.part part.toNat = _ from Tables.part_modPart ..]
      simp
    · rw [hports]
      exact List.mem_map.2 ⟨e, List.mem_filter.2 ⟨he, by simp [hlt, hcar]⟩, rfl⟩

/-- Settles O55: each clause is the rule of its command. That a pour ready for its stage has started, or is gone, after the command holds since
no stage of the slots before it changes it but by ending it. The slip of a stage (log entry 53) and that packets of segment 47 pass a
fence (log entry 71) are the model's readings. -/
theorem poursZeroingAndFencesComplete : Obligations.PoursZeroingAndFencesComplete := by
  unfold Obligations.PoursZeroingAndFencesComplete
  intro s d hon x others
  refine ⟨fun k pl => ?pours, ?zeroing, fun part => ?part⟩
  case pours =>
    intro c ready late
    have hready {q : Pour} (hkey : q.key = k) (hpl : q.place = pl) : ready q = x.ready k q := by
      simp [ready, Die.ready, c, hkey, hpl]
    refine ⟨fun n q h0 hq hr => ?_, fun h => ?_, fun h => pourTimeout_ends hon h, fun h => exec_pourTimeout_early h, fun h => ?_,
      fun h => exec_abortRecordExpiry_early h⟩
    · obtain ⟨-, hkey, hpl, -⟩ := Die.pourAt_mem hq
      rw [hready hkey hpl] at hr
      exact ⟨blendStageStart_starts hon h0 hq hr, fun hone r hat =>
        ⟨blendStageStart_waits hon hq hone hr hat, blendStageStart_runs hon hq hone hr hat⟩⟩
    · exact blendStageStart_unready hon fun q hq hkey hpl => (hready hkey hpl).symm.trans (h q hq)
    · refine ⟨_, exec_abortRecordExpiry_due hon h, s.same_modDie _, ?_⟩
      rw [State.die_modDie, State.fresh_die]
      exact ⟨rfl, rfl, rfl⟩
  case zeroing =>
    intro past ended waits
    refine ⟨⟨_, exec_potZeroDone hon, s.same_modDie _, ?_⟩, _, exec_segmentZeroDone hon, ?_, ?_⟩
    · rw [State.die_modDie, State.fresh_die]
      exact ⟨rfl, rfl, fun n => x.endPotJobs_pot n⟩
    · obtain ⟨hothers, htok, hfuse⟩ := s.same_modDie (d := d) fun x => x.endSegJobs.freeReturned
      exact ⟨fun e he => (State.planPower_die e).trans (hothers e he), htok, hfuse⟩
    · rw [State.planPower_die, State.die_modDie, State.fresh_die]
      obtain ⟨hjobs, hheld, hparts⟩ := x.endSegJobs.freeReturned_kept
      exact ⟨hjobs, hparts, hheld, fun n => ⟨Die.segment_zeroed, Die.segment_freed⟩⟩
  case part =>
    intro p q
    refine ⟨fun hst hview => ⟨fun hz => ?_, exec_partOpenReady_zeroing⟩, exec_partFence_untouched, exec_partFence_forgets hon,
      partFence_fences hon, fun f hf hst => ⟨exec_fenceDiscard_early hf, fun hr => ?_⟩⟩
    · refine ⟨_, exec_partOpenReady_done hon hview hst hz, State.same_of_calm (State.raiseDie_calm ..) (s.same_modDie _), ?_⟩
      rw [State.die_of_calm (State.raiseDie_calm ..), State.die_modDie, State.fresh_die]
      exact ⟨Tables.part_modPart .., fun o ho => Tables.part_modPart_ne _ _ ho, rfl, rfl⟩
    · refine ⟨_, exec_fenceDiscard_due hon hf hst hr, s.same_modDie _, ?_⟩
      rw [State.die_modDie, State.fresh_die]
      have hstock := Die.discardHeld_stock (x := x) (fun h => h.seg != 47 && h.hdr.part.toNat == p) (fun _ => cPart 0x0D 0 p) false
      exact ⟨congrArg Stock.tab hstock, congrArg Stock.held hstock⟩

end Sys2Proof.Machine
end

section
/-! SUPPORT. What a die does with a contribution, and with a packet that it relays (spec/07 R265 to R271, R286, R287). -/

namespace Sys2Proof.Machine
variable {s t : State} {d : DieId} {k : PourKey}

/-! ### Records and relays -/

/-- A die but for what its packets write and what it keeps of pours beside those at its places: records, aborts that are due and relays. -/
def Die.besideRecords (x : Die) : Die := { x.besideSent with aborts := [], abortDue := [], relayUps := [], relayDowns := [] }

theorem State.Beside.records (h : s.Beside Die.besideSent d t) : s.Beside Die.besideRecords d t :=
  ⟨Die.eq_of_beside h.die Die.besideRecords fun _ => rfl, h.others, h.boot, h.tok, h.fuse⟩

theorem State.beside_lateContribution (h : Hdr) (r : AbortRec) (rank : Nat) :
    s.Beside Die.besideRecords d (s.lateContribution d h k r rank) := by
  have hdiscard : s.Beside Die.besideRecords d (s.modDie d fun x => x.discard h (cPart 11 1 h.part.toNat)) :=
    (State.Beside.modDie (Die.discard_besideSent ..)).records
  unfold State.lateContribution
  extract_lets u
  split
  · exact hdiscard
  · exact (hdiscard.trans (.modDie rfl)).trans (State.beside_sendMember ..).records

theorem State.beside_lateRelay (part : BitVec 4) (h : Hdr) (hd : BlendHead) (r : AbortRec) :
    s.Beside Die.besideRecords d (s.lateRelay d k part h hd r) := by
  have hdiscard : s.Beside Die.besideRecords d (s.modDie d fun x => x.discard h (cPart 11 1 part.toNat)) :=
    (State.Beside.modDie (Die.discard_besideSent ..)).records
  unfold State.lateRelay
  extract_lets rank c u
  split
  · split
    · exact (hdiscard.trans (.modDie rfl)).trans (State.beside_sendMember ..).records
    · exact hdiscard
  · exact hdiscard

theorem State.beside_relayedResult (part : BitVec 4) (rank : Nat) (bytes : List Byte) (mark : Bool) :
    s.Beside Die.besideRecords d (s.relayedResult d k part rank bytes mark) := by
  unfold State.relayedResult
  extract_lets x c n w dropped w' valid told u
  have hu : s.Beside Die.besideRecords d u := .modDie rfl
  split
  · split
    · exact (hu.trans (.modDie rfl)).trans (State.beside_sendMember ..).records
    · exact hu
  · exact hu

theorem State.beside_relayDown (part : BitVec 4) (hd : BlendHead) (data : List Byte) (mark : Bool) :
    s.Beside Die.besideRecords d (s.relayDown d k part hd data mark) := by
  unfold State.relayDown
  extract_lets rank mine r r' u
  have hu : s.Beside Die.besideRecords d u := .modDie rfl
  split
  · exact hu.trans (State.beside_relayedResult ..)
  · exact hu.trans (.modDie rfl)

/-- What a die has of a member's contribution that it relays, before one more packet of it. -/
def Die.relayUpOf (x : Die) (k : PourKey) (rank p : Nat) : RelayUp :=
  (x.relayUps.find? fun r => r.key == k && r.rank == rank).getD { key := k, rank := rank, inPort := p }

/-- The same after that packet: what the member has given is counted within the capacity (R268). -/
def RelayUp.add (r : RelayUp) (cap : Nat) (data : List Byte) (last : Bool) : RelayUp :=
  let keep := min data.length (cap - r.kept)
  { r with kept := r.kept + keep, dropped := r.dropped + (data.length - keep), last := last }

theorem Die.relayUpOf_name (x : Die) (k : PourKey) (rank p : Nat) : (x.relayUpOf k rank p).key = k ∧ (x.relayUpOf k rank p).rank = rank := by
  unfold Die.relayUpOf
  cases h : x.relayUps.find? fun r => r.key == k && r.rank == rank with
  | none => exact ⟨rfl, rfl⟩
  | some r => simpa using List.find?_some h

theorem Die.relayUpOf_kept (x : Die) (k : PourKey) (rank p : Nat) : (x.relayUpOf k rank p).kept =
    ((x.relayUps.find? fun r => r.key == k && r.rank == rank).map (·.kept)).getD 0 := by
  unfold Die.relayUpOf
  cases x.relayUps.find? fun r => r.key == k && r.rank == rank <;> rfl

/-- A contribution packet relayed is noted, and otherwise only sent on, or discarded where it has no path. -/
theorem State.beside_relayUp (p : Nat) (part : BitVec 4) (rank home cap : Nat) (data : List Byte) (last mark : Bool) :
    (s.modDie d fun x => { x with relayUps := (x.relayUps.filter fun q => !(q.key == k && q.rank == rank)) ++
      [((s.die d).relayUpOf k rank p).add cap data last] }).Beside Die.besideSent d (s.relayUp d p k part rank home cap data last mark) := by
  unfold State.relayUp
  extract_lets x r keep r' u
  split
  · exact .modDie (Die.discard_besideSent ..)
  · exact .modDie (by simp)

/-- A contribution packet relayed leaves the pours of the die, and adds to what the member has given. -/
theorem State.relayUp_spec (p : Nat) (part : BitVec 4) (rank home cap : Nat) (data : List Byte) (last mark : Bool) :
    s.Beside Die.besideRecords d (s.relayUp d p k part rank home cap data last mark) ∧
      ∃ o ∈ ((s.relayUp d p k part rank home cap data last mark).die d).relayUps, o.key = k ∧ o.rank = rank ∧
        o.kept = ((s.die d).relayUpOf k rank p).kept + min data.length (cap - ((s.die d).relayUpOf k rank p).kept) ∧ o.last = last := by
  have hb := State.beside_relayUp (s := s) (d := d) (k := k) p part rank home cap data last mark
  obtain ⟨hkey, hrank⟩ := (s.die d).relayUpOf_name k rank p
  refine ⟨(State.Beside.modDie rfl).trans hb.records, ((s.die d).relayUpOf k rank p).add cap data last, ?_, hkey, hrank, rfl, rfl⟩
  rw [hb.eq (·.relayUps) fun _ => rfl, State.die_modDie]
  exact List.mem_append_right _ List.mem_cons_self

/-! ### Bridges -/

/-- No bridge pair that a pour needs is down (R573). -/
def State.Bridged (s : State) (d : DieId) (k : PourKey) : Prop :=
  ∀ e, e ≠ d → ((s.die d).port (bridgePort d e)).inService = true ∨ ((s.die d).port (bridgePort d e + 1)).inService = true ∨
    s.needsSibling d k (s.leafIndex e) = false

theorem State.Bridged.congr (hs : s.Bridged d k) (hports : (t.die d).ports = (s.die d).ports) (hview : (t.die d).view = (s.die d).view)
    (hboot : t.boot = s.boot) : t.Bridged d k := by
  intro e he
  have hport (p : Nat) : (t.die d).port p = (s.die d).port p := by simp only [Die.port, hports]
  have hleaf (e : DieId) : t.leafIndex e = s.leafIndex e := by simp only [State.leafIndex, hboot]
  have hneeds (l : Nat) : t.needsSibling d k l = s.needsSibling d k l := by simp only [State.needsSibling, hview, hleaf]
  rw [hport, hport, hneeds, hleaf]
  exact hs e he

theorem State.Beside.bridged (h : s.Beside Die.besidePours d t) (hs : s.Bridged d k) : t.Bridged d k :=
  hs.congr (h.eq (·.ports) fun _ => rfl) (h.eq (·.view) fun _ => rfl) h.boot

theorem State.checkBridges_of_bridged (h : s.Bridged d k) : s.checkBridges d k = s := by
  have hno : (allDieIds.any fun e => (e != d && !((s.die d).port (bridgePort d e)).inService &&
      !((s.die d).port (bridgePort d e + 1)).inService) && s.needsSibling d k (s.leafIndex e)) = false := by
    refine List.any_eq_false.2 fun e _ hcut => ?_
    simp only [Bool.and_eq_true, bne_iff_ne, ne_eq, Bool.not_eq_true'] at hcut
    obtain ⟨⟨⟨hne, hlow⟩, hhigh⟩, hneeds⟩ := hcut
    rcases h e hne with h | h | h
    · exact Bool.false_ne_true (hlow.symm.trans h)
    · exact Bool.false_ne_true (hhigh.symm.trans h)
    · exact Bool.false_ne_true (h.symm.trans hneeds)
  unfold State.checkBridges
  extract_lets x cut
  rw [if_neg]
  rw [Bool.and_eq_true]
  exact fun hcut => Bool.false_ne_true (hno.symm.trans hcut.2)

theorem State.firstInput_of_bridged (h : t.Bridged d k) : s.firstInput t d k = t := by
  unfold State.firstInput
  rw [State.checkBridges_of_bridged h]
  exact ite_self t

/-- What begins no pour of a name is not its first input. -/
theorem State.firstInput_of_sub (h : ∀ q ∈ (t.die d).pours, q ∈ (s.die d).pours) : s.firstInput t d k = t := by
  refine if_neg fun hfirst => ?_
  rw [Bool.and_eq_true, Bool.not_eq_true'] at hfirst
  obtain ⟨hold, hnew⟩ := hfirst
  obtain ⟨q, hq, hkey⟩ := List.any_eq_true.1 hnew
  exact Bool.false_ne_true (hold.symm.trans (List.any_eq_true.2 ⟨q, h q hq, hkey⟩))

theorem State.Beside.firstInput (h : s.Beside Die.besideRecords d t) (k : PourKey) : s.firstInput t d k = t :=
  State.firstInput_of_sub fun q hq => by rwa [h.eq (·.pours) fun _ => rfl] at hq

end Sys2Proof.Machine
end

section
/-! SUPPORT. Packets of VC1 and VC2 at a die: what becomes of each kind, one rule for each case of spec/07 R265 to R271, R284 to R294. -/

namespace Sys2Proof.Machine
variable {s t : State} {d : DieId}

/-- The name of a pour from the header of its packet. -/
abbrev Hdr.pourKey (h : Hdr) (gather : Bool) : PourKey := { group := h.group, gather := gather, pour := h.pour }

/-- The die has not recorded the pour as aborted (R271, R294). -/
def Die.Live (x : Die) (k : PourKey) : Prop := ∀ r, x.record k = some r → r.status = 0

theorem Die.Live.record {x : Die} {k : PourKey} (h : x.Live k) : (x.record k).filter (fun r => r.status != 0) = none := by
  cases hr : x.record k with
  | none => rfl
  | some r => simp [Option.filter, h r hr]

theorem Die.record_aborted {x : Die} {k : PourKey} {a : AbortRec} (ha : x.record k = some a) (hstatus : a.status ≠ 0) :
    (x.record k).filter (fun r => r.status != 0) = some a := by
  rw [ha, Option.filter_some, if_pos (bne_iff_ne.2 hstatus)]

/-- A packet discarded as of no group of its partition. -/
abbrev State.closed (s : State) (d : DieId) (h : Hdr) : State := s.modDie d fun x => x.discard h (cPart 11 0 h.part.toNat)

theorem State.beside_closed (h : Hdr) : s.Beside Die.besideSent d (s.closed d h) := .modDie (Die.discard_besideSent ..)

/-! ### Contributions -/

/-- The bytes of a contribution packet beyond the capacity, counted where there are any (R268). -/
def State.countPast (s : State) (d : DieId) (p n : Nat) : State := if n = 0 then s else s.modDie d fun x => x.count (ctrKey 11 p 0 0 4) n

theorem State.beside_countPast (p n : Nat) : s.Beside Die.besideSent d (s.countPast d p n) := by
  unfold State.countPast
  split
  · exact .refl s
  · exact .modDie rfl

/-- The sender of a packet has a rank in its group, and the block of the rank is at home at a leaf die (R265, R267). -/
structure State.Gives (s : State) (d : DieId) (h : Hdr) (r l : Nat) : Prop where
  valid : gValid ((s.die d).view.group h.group.toNat).control = true
  part : gPart ((s.die d).view.group h.group.toNat).control = h.part.toNat
  rank : s.rankOf d ((s.die d).view.group h.group.toNat).control h.src = some r
  home : ((s.die d).view.group h.group.toNat).home (r / 32) = some l

theorem decide_ne_eq_bne {n : Nat} (a b : BitVec n) : decide (a ≠ b) = (a != b) := by
  rw [Bool.eq_iff_iff]
  simp

section Contribute
variable {p : Nat} {h : Hdr} {data : List Byte} {w : Option Parked}

theorem State.contribute_foreign
    (hno : gValid ((s.die d).view.group h.group.toNat).control = false ∨ gPart ((s.die d).view.group h.group.toNat).control ≠ h.part.toNat ∨
      s.rankOf d ((s.die d).view.group h.group.toNat).control h.src = none) :
    s.contribute d p h data w = s.closed d h := by
  rcases hno with hno | hno | hno <;> simp [State.contribute, hno]

variable {r l : Nat} (hgives : s.Gives d h r l)
include hgives

theorem State.contribute_late {a : AbortRec} (ha : (s.die d).record (h.pourKey (h.type = 0x09)) = some a) (hstatus : a.status ≠ 0) :
    s.contribute d p h data w = s.lateContribution d h (h.pourKey (h.type = 0x09)) a r := by
  obtain ⟨hvalid, hpart, hrank, hhome⟩ := hgives
  simp only [State.contribute, hvalid, hpart, hrank, hhome, ha, hstatus, Bool.not_true, Bool.false_or, ne_eq, not_true_eq_false,
    decide_false, Bool.false_eq_true, if_false]

section Live
variable (hlive : (s.die d).Live (h.pourKey (h.type = 0x09)))
include hlive

/-- A contribution packet of a pour that has not been aborted is discarded where the member's run has ended, and otherwise taken here or
relayed, what is beyond the capacity counted. -/
theorem State.contribute_live : ∃ n, s.contribute d p h data w =
    if ((s.die d).runSoFar (h.pourKey (h.type = 0x09)) r).2 then s.closed d h
    else if l = (s.countPast d p n).leafIndex d then
      (s.countPast d p n).modDie d fun x => x.takeContribution (h.pourKey (h.type = 0x09)) h.part r p
        (capacity ((s.die d).view.group h.group.toNat).control (h.type = 0x09)) data (h.len ≠ 4096) h.mark w
    else (s.countPast d p n).relayUp d p (h.pourKey (h.type = 0x09)) h.part r l
      (capacity ((s.die d).view.group h.group.toNat).control (h.type = 0x09)) data (h.len ≠ 4096) h.mark := by
  obtain ⟨hvalid, hpart, hrank, hhome⟩ := hgives
  refine ⟨data.length - min data.length (capacity ((s.die d).view.group h.group.toNat).control (h.type = 0x09) -
    ((s.die d).runSoFar (h.pourKey (h.type = 0x09)) r).1), ?_⟩
  cases ha : (s.die d).record (h.pourKey (h.type = 0x09)) with
  | none =>
    simp only [State.contribute, hvalid, hpart, hrank, hhome, ha, Bool.not_true, Bool.false_or, ne_eq, not_true_eq_false, decide_false,
      Bool.false_eq_true, if_false]
    rfl
  | some a =>
    simp only [State.contribute, hvalid, hpart, hrank, hhome, ha, hlive a ha, Bool.not_true, Bool.false_or, ne_eq, not_true_eq_false,
      decide_false, Bool.false_eq_true, if_false, if_true]
    rfl

theorem State.contribute_ended (hrun : ((s.die d).runSoFar (h.pourKey (h.type = 0x09)) r).2 = true) :
    s.contribute d p h data w = s.closed d h := by
  obtain ⟨n, hn⟩ := State.contribute_live (data := data) (p := p) (w := w) hgives hlive
  rw [hn, if_pos hrun]

variable (hrun : ((s.die d).runSoFar (h.pourKey (h.type = 0x09)) r).2 = false)
include hrun

/-- A contribution packet whose block is at home here extends the input of its rank (R265, R267, R268). -/
theorem State.contribute_home (hl : l = s.leafIndex d)
    (hone : (s.die d).relayUps.find? (fun o => o.key == h.pourKey (h.type = 0x09) && o.rank == r) = none) :
    s.Beside Die.besidePours d (s.contribute d p h data w) ∧
      ∃ q i, ((s.contribute d p h data w).die d).pourAt (h.pourKey (h.type = 0x09)) .level1 = some q ∧
        Map.look q.inputs (r % 32) = some i ∧
        i.len = ((s.die d).runSoFar (h.pourKey (h.type = 0x09)) r).1 + min data.length
          (capacity ((s.die d).view.group h.group.toNat).control (h.type = 0x09) -
            ((s.die d).runSoFar (h.pourKey (h.type = 0x09)) r).1) ∧
        i.last = (h.len != 4096) := by
  obtain ⟨n, hn⟩ := State.contribute_live (data := data) (p := p) (w := w) hgives hlive
  have hb := State.beside_countPast (s := s) (d := d) p n
  have hkept : ((s.countPast d p n).die d).keptAt (h.pourKey (h.type = 0x09)) (r % 32) =
      ((s.die d).runSoFar (h.pourKey (h.type = 0x09)) r).1 :=
    (hb.eq (·.keptAt (h.pourKey (h.type = 0x09)) (r % 32)) fun _ => rfl).trans (Die.runSoFar_home hone).symm
  rw [hn, if_neg (by rw [hrun]; exact Bool.false_ne_true), if_pos (by rw [hb.leafIndex, hl]), ← decide_ne_eq_bne]
  refine ⟨hb.pours.trans (.modDie (Die.takeContribution_besidePours ..)), ?_⟩
  rw [State.die_modDie, ← hkept]
  exact Die.takeContribution_input ..

/-- A contribution packet whose block is at home elsewhere is relayed, with what the member has given counted within the capacity. -/
theorem State.contribute_away (hl : l ≠ s.leafIndex d) :
    s.Beside Die.besideRecords d (s.contribute d p h data w) ∧
      ∃ o ∈ ((s.contribute d p h data w).die d).relayUps, o.key = h.pourKey (h.type = 0x09) ∧ o.rank = r ∧
        o.kept = ((s.die d).relayUpOf (h.pourKey (h.type = 0x09)) r p).kept + min data.length
          (capacity ((s.die d).view.group h.group.toNat).control (h.type = 0x09) -
            ((s.die d).relayUpOf (h.pourKey (h.type = 0x09)) r p).kept) ∧
        o.last = (h.len != 4096) := by
  obtain ⟨n, hn⟩ := State.contribute_live (data := data) (p := p) (w := w) hgives hlive
  have hb := State.beside_countPast (s := s) (d := d) p n
  have hold : ((s.countPast d p n).die d).relayUpOf (h.pourKey (h.type = 0x09)) r p = (s.die d).relayUpOf (h.pourKey (h.type = 0x09)) r p :=
    hb.eq (·.relayUpOf (h.pourKey (h.type = 0x09)) r p) fun _ => rfl
  rw [hn, if_neg (by rw [hrun]; exact Bool.false_ne_true), if_neg (by rwa [hb.leafIndex]), ← decide_ne_eq_bne, ← hold]
  exact (State.relayUp_spec ..).imp_left hb.records.trans

end Live

end Contribute

/-! ### Packets with a blend head -/

section Blend
variable {p : Nat} {h : Hdr} {hd : BlendHead} {data : List Byte} {w : Option Parked}

theorem State.blendIn_abort (hkind : hd.kind = 6) : s.blendIn d p h hd data w = s.abortIn d (h.pourKey hd.gather) h hd.abort := by
  have hn : hd.kind.toNat = 6 := congrArg BitVec.toNat hkind
  simp only [State.blendIn, hn]

theorem State.blendIn_relayed (hkind : hd.kind = 5) :
    s.blendIn d p h hd data w = s.relayDown d (h.pourKey hd.gather) h.part hd data h.mark := by
  have hn : hd.kind.toNat = 5 := congrArg BitVec.toNat hkind
  simp only [State.blendIn, hn]

section Late
variable {a : AbortRec} (ha : (s.die d).record (h.pourKey hd.gather) = some a) (hstatus : a.status ≠ 0)
include ha hstatus

theorem State.blendIn_lateRelay (hkind : hd.kind = 4) :
    s.blendIn d p h hd data w = s.lateRelay d (h.pourKey hd.gather) h.part h hd a := by
  unfold State.blendIn
  extract_lets x c k aborted
  rw [hkind, show aborted = some a from Die.record_aborted ha hstatus]
  rfl

theorem State.blendIn_late (h4 : hd.kind ≠ 4) (h5 : hd.kind ≠ 5) (h6 : hd.kind ≠ 6) :
    s.blendIn d p h hd data w = s.modDie d fun x => x.discard h (cPart 11 1 h.part.toNat) := by
  have hne {n : BitVec 3} (hn : hd.kind ≠ n) : hd.kind.toNat ≠ n.toNat := fun he => hn (BitVec.eq_of_toNat_eq he)
  unfold State.blendIn
  extract_lets x c k aborted
  rw [show aborted = some a from Die.record_aborted ha hstatus]
  split
  · next he => exact absurd he (hne h6)
  · next he => exact absurd he (hne h5)
  · next he _ => exact absurd he (hne h4)
  · rfl
  all_goals contradiction

end Late

section Live
variable (hlive : (s.die d).Live (h.pourKey hd.gather))
include hlive

theorem State.blendIn_input {pl : Place} {n : Nat}
    (hkind : (hd.kind = 1 ∧ pl = .level2 ∧ n = 0) ∨ (hd.kind = 3 ∧ pl = .delivery ∧ n = 0) ∨
      (hd.kind = 2 ∧ pl = .level3 ∧ n = slotOf ((s.die d).view.group h.group.toNat).control hd.gather hd.offset.toNat)) :
    s.blendIn d p h hd data w = s.modDie d fun x => x.takeInput (h.pourKey hd.gather) h.part pl n hd h.mark data w := by
  unfold State.blendIn
  extract_lets x c k aborted
  rw [show aborted = none from hlive.record]
  rcases hkind with ⟨hkind, rfl, rfl⟩ | ⟨hkind, rfl, rfl⟩ | ⟨hkind, rfl, rfl⟩ <;> rw [hkind] <;> rfl

/-- A blend packet of KIND 1 to 3 is an input of its place (R284, R285). -/
theorem State.blendIn_input_taken {pl : Place} {n : Nat}
    (hkind : (hd.kind = 1 ∧ pl = .level2 ∧ n = 0) ∨ (hd.kind = 3 ∧ pl = .delivery ∧ n = 0) ∨
      (hd.kind = 2 ∧ pl = .level3 ∧ n = slotOf ((s.die d).view.group h.group.toNat).control hd.gather hd.offset.toNat)) :
    s.Beside Die.besidePours d (s.blendIn d p h hd data w) ∧
      ∃ q i, ((s.blendIn d p h hd data w).die d).pourAt (h.pourKey hd.gather) pl n = some q ∧ Map.look q.inputs hd.pos.toNat = some i ∧
        i.len = hd.pourLen.toNat ∧ (hd.last = true → i.last = true) ∧ (data ≠ [] → Map.look i.data hd.offset.toNat = some data) := by
  rw [State.blendIn_input hlive hkind, State.die_modDie]
  exact ⟨.modDie (Die.takeInput_besidePours ..), Die.takeInput_input ..⟩

theorem State.blendIn_contribution (hkind : hd.kind = 4) :
    s.blendIn d p h hd data w = s.modDie d fun x => x.relayedInput (h.pourKey hd.gather) h.part p hd data h.mark w := by
  unfold State.blendIn
  extract_lets x c k aborted
  rw [show aborted = none from hlive.record, hkind]
  rfl

/-- A blend packet of KIND 4 is a contribution at level 1 (R286). -/
theorem State.blendIn_contribution_taken (hkind : hd.kind = 4) :
    s.Beside Die.besidePours d (s.blendIn d p h hd data w) ∧
      ∃ q i, ((s.blendIn d p h hd data w).die d).pourAt (h.pourKey hd.gather) .level1 = some q ∧
        Map.look q.inputs (hd.pos.toNat % 32) = some i ∧ i.len = hd.pourLen.toNat ∧ (hd.last = true → i.last = true) := by
  rw [State.blendIn_contribution hlive hkind, State.die_modDie]
  exact ⟨.modDie (Die.relayedInput_besidePours ..), Die.relayedInput_input ..⟩

theorem State.blendIn_unknown (hkind : hd.kind = 0 ∨ hd.kind = 7) : s.blendIn d p h hd data w = s.closed d h := by
  unfold State.blendIn
  extract_lets x c k aborted
  rw [show aborted = none from hlive.record]
  rcases hkind with hkind | hkind <;> rw [hkind] <;> rfl

end Live

end Blend

/-! ### Packets that a die takes in -/

/-- The die with the number of a packet taken. -/
abbrev State.numbered (s : State) (d : DieId) : State := s.modDie d fun x => { x with nextId := x.nextId + 1 }

/-- A held packet of the packet buffer, as a place takes it in. -/
abbrev Held.parked (q : Held) (n : Nat) : Option Parked := some { id := n, seg := q.seg, cells := q.cells, len := q.hdr.len.toNat }

/-- The blend head of a packet. -/
abbrev Held.head (q : Held) : BlendHead := BlendHead.ofWord (BitVec.ofNat 256 (leNat (q.data.take 32)))

section Take
variable {q : Held}

theorem State.takeCollective_member (hdown : s.isDown q.inPort = true) (hvc : q.hdr.vc = 1) :
    s.takeCollective d q = s.firstInput ((s.numbered d).contribute d q.inPort q.hdr q.data (q.parked (s.die d).nextId)) d
      (q.hdr.pourKey (q.hdr.type = 0x09)) := by
  simp [State.takeCollective, hdown, hvc]

theorem State.takeCollective_stray (hdown : s.isDown q.inPort = true) (hvc : q.hdr.vc ≠ 1) : s.takeCollective d q = s.closed d q.hdr := by
  simp only [State.takeCollective, hdown, hvc, if_true, if_false]

section Up
variable (hdown : s.isDown q.inPort = false)
include hdown

theorem State.takeCollective_foreign
    (hno : gValid ((s.die d).view.group q.hdr.group.toNat).control = false ∨
      gPart ((s.die d).view.group q.hdr.group.toNat).control ≠ q.hdr.part.toNat) : s.takeCollective d q = s.closed d q.hdr := by
  rcases hno with hno | hno <;> simp [State.takeCollective, hdown, hno]

variable (hvalid : gValid ((s.die d).view.group q.hdr.group.toNat).control = true)
  (hpart : gPart ((s.die d).view.group q.hdr.group.toNat).control = q.hdr.part.toNat)
include hvalid hpart

theorem State.takeCollective_passed {o : Nat} (hpass : s.passes d q.hdr q.head = true)
    (ho : s.passTo d q.inPort q.hdr.vc.toNat (leafOf q.hdr.dst) = some o) :
    s.takeCollective d q =
      s.modDie d fun x => x.enqueue { q with outPort := o, data := le 32 q.head.word.toNat ++ q.data.drop 32, bin := .queue } := by
  simp [State.takeCollective, hdown, hvalid, hpart, hpass, ho]

theorem State.takeCollective_lost (hpass : s.passes d q.hdr q.head = true)
    (ho : s.passTo d q.inPort q.hdr.vc.toNat (leafOf q.hdr.dst) = none) :
    s.takeCollective d q = s.modDie d fun x => x.discard q.hdr (cPart 6 2 q.hdr.part.toNat) true := by
  simp [State.takeCollective, hdown, hvalid, hpart, hpass, ho]

theorem State.takeCollective_blend (hpass : s.passes d q.hdr q.head = false) :
    s.takeCollective d q = s.firstInput ((s.numbered d).blendIn d q.inPort q.hdr q.head (q.data.drop 32) (q.parked (s.die d).nextId)) d
      (q.hdr.pourKey q.head.gather) := by
  simp [State.takeCollective, hdown, hvalid, hpart, hpass]

end Up

end Take

end Sys2Proof.Machine
end

section
/-! SUPPORT. The arrival of a packet of VC1 or VC2 that a die admits (spec/03 R95, spec/07 R265, R284). -/

namespace Sys2Proof.Machine
variable {s : State} {d : DieId} {p : PortId} {w : BitVec 256} {bs : List Byte} {t : Nat}

/-- The state in which a packet that arrives `t` after the boundary has passed the checks and is counted (R95). -/
abbrev State.passed (s : State) (d : DieId) (p : PortId) (w : BitVec 256) (t : Nat) : State :=
  s.fresh.setDie d (({ s.die d with clock := t } : Die).countRx p.val (Hdr.ofWord w))

/-- A packet that a die has admitted, in its segment. -/
abbrev Die.admitted (x : Die) (q : Nat) (h : Hdr) (bs : List Byte) (g : Nat × List (Nat × Nat)) : Held :=
  { id := x.nextId, inPort := q, outPort := 0, hdr := h, data := bs, bin := .queue, seg := g.1, cells := g.2, tick := x.now }

/-- A die but for what the arrival of a packet writes: the time of the command, the counters and the number of the next packet. -/
def Die.besideArrival (x : Die) : Die := { x with clock := 0, ctr := [], nextId := 0 }

theorem State.beside_fresh {f : Die → Die} : s.Beside f d s.fresh := .of_calm rfl

theorem State.beside_clock : s.Beside Die.besideArrival d (s.fresh.modDie d fun x => { x with clock := t }) :=
  State.beside_fresh.trans (.modDie rfl)

theorem State.beside_passed : s.Beside Die.besideArrival d (s.passed d p w t) :=
  State.beside_fresh.trans (State.beside_setDie (by rw [State.fresh_die]; rfl))

section Arrival
variable {u : State} (h : s.Beside Die.besideArrival d u)
include h

theorem State.Beside.takes (q : Nat) : u.takes d q = s.takes d q := by
  have hon : (u.die d).on = (s.die d).on := h.eq (·.on) fun _ => rfl
  have hport : (u.die d).port q = (s.die d).port q := h.eq (·.port q) fun _ => rfl
  simp only [State.takes, State.shutBridge, State.isSpine, hon, hport, h.boot]

theorem State.Beside.isSpine : u.isSpine = s.isSpine := by simp only [State.isSpine, h.boot]

theorem State.Beside.isDown (q : Nat) : u.isDown q = s.isDown q := by simp only [State.isDown, State.isLeaf, h.boot]

theorem State.Beside.ingressFault (q : Nat) (w : BitVec 256) : u.ingressFault d q w = s.ingressFault d q w := by
  have hview : (u.die d).view = (s.die d).view := h.eq (·.view) fun _ => rfl
  have hid : u.endpointId d q = s.endpointId d q := by simp only [State.endpointId, h.boot]
  simp only [State.ingressFault, hview, h.isDown, hid]

theorem State.Beside.stamp (q : Nat) (hd : Hdr) : u.stamp d q hd = s.stamp d q hd := by
  have hview : (u.die d).view = (s.die d).view := h.eq (·.view) fun _ => rfl
  have hnow : (u.die d).now = (s.die d).now := h.eq (·.now) fun _ => rfl
  simp only [State.stamp, hview, hnow, h.isDown]

theorem State.Beside.rankOf (c : BitVec 128) (ep : BitVec 11) : u.rankOf d c ep = s.rankOf d c ep := by
  have hview : (u.die d).view = (s.die d).view := h.eq (·.view) fun _ => rfl
  have hnow : (u.die d).now = (s.die d).now := h.eq (·.now) fun _ => rfl
  simp only [State.rankOf, hview, hnow]

theorem State.Beside.gives {hd : Hdr} {r l : Nat} (hgives : s.Gives d hd r l) : u.Gives d hd r l := by
  obtain ⟨hvalid, hpart, hrank, hhome⟩ := hgives
  have hview : (u.die d).view = (s.die d).view := h.eq (·.view) fun _ => rfl
  exact ⟨by rwa [hview], by rwa [hview], by rwa [hview, h.rankOf], by rwa [hview]⟩

theorem State.Beside.bridgedArrival {k : PourKey} (hs : s.Bridged d k) : u.Bridged d k :=
  hs.congr (h.eq (·.ports) fun _ => rfl) (h.eq (·.view) fun _ => rfl) h.boot

theorem State.Beside.passes (q : Hdr) (hd : BlendHead) : u.passes d q hd = s.passes d q hd := by
  simp only [State.passes, h.isSpine, h.leafIndex]

theorem State.Beside.passTo (q vc l : Nat) : u.passTo d q vc l = s.passTo d q vc l := by
  have hok (n : Nat) : (u.die d).ok n = (s.die d).ok n := h.eq (·.ok n) fun _ => rfl
  have hbridge (e : DieId) (vc : Nat) : (u.die d).bridgeTo d e vc = (s.die d).bridgeTo d e vc := h.eq (·.bridgeTo d e vc) fun _ => rfl
  have hup (n : Nat) : u.isUp n = s.isUp n := by simp only [State.isUp, State.isLeaf, h.boot]
  simp only [State.passTo, h.isSpine, hup, h.leafIndex, hok, hbridge]

end Arrival

theorem State.arrive_passed (htakes : s.takes d p.val = true) (hfault : s.ingressFault d p.val w = none) :
    s.arrive d p w bs t = (s.passed d p w t).accept d p.val (s.stamp d p.val (Hdr.ofWord w)) bs t := by
  have hclock := State.beside_clock (s := s) (d := d) (t := t)
  unfold State.arrive
  extract_lets u h v
  have hv : v = s.passed d p w t := by simp [v, u, State.modDie, h]
  rw [show u.takes d p.val = true from (hclock.takes p.val).trans htakes,
    show u.ingressFault d p.val w = none from (hclock.ingressFault p.val w).trans hfault, hv, State.beside_passed.stamp]
  rfl

/-- A packet of VC1 or VC2 that a die admits to its buffer, in an OPEN partition that is not DRAINED, goes to the blend stage. -/
theorem State.accept_collective {h : Hdr} {g : Nat × List (Nat × Nat)} {q : Nat} (hloop : q ≠ 71) (hmail : h.mailbox = false)
    (hvc : h.vc = 1 ∨ h.vc = 2) (hopen : ((s.die d).view.part h.part.toNat).state = .opened)
    (hdrained : Map.lookD (s.die d).drained h.key false = false) (hadmits : s.admits d q h = some g) :
    s.accept d q h bs t = ((s.takeCollective d ((s.die d).admitted q h bs g)).cutThrough s d q t (s.die d).nextId).noteArrival d q
      (s.arrivalKey q h) h.bytes := by
  have hcoll : h.collective = true := by rcases hvc with hvc | hvc <;> simp [Hdr.collective, hvc]
  simp [State.accept, State.takeIn, State.goOn, hloop, hmail, hopen, hdrained, hadmits, hcoll]

/-- The commands of packets of VC1 and VC2. -/
abbrev collectiveRows (d : DieId) (p : PortId) (w : BitVec 256) (a : Arrival) : List Instr :=
  [.packetIngress d p w a, .contrib d p w a, .gatherIn d p w a, .blendPacket d p w a, .blendAbort d p w a]

theorem exec_collectiveRows {i : Instr} (hi : i ∈ collectiveRows d p w ⟨bs, t⟩) (hwf : i.wf = true) :
    exec i s = .next (s.arrive d p w bs t) := by
  simp only [List.mem_cons, List.not_mem_nil, or_false] at hi
  rcases hi with rfl | rfl | rfl | rfl | rfl <;> exact if_pos hwf

/-- A packet of VC1 or VC2 that passes the checks goes to the blend stage and is noted for flow control, whichever command brings it. -/
theorem exec_collective {g : Nat × List (Nat × Nat)} {i : Instr} (htakes : s.takes d p.val = true)
    (hfault : s.ingressFault d p.val w = none) (hloop : p.val ≠ 71) (hmail : (s.stamp d p.val (Hdr.ofWord w)).mailbox = false)
    (hvc : (s.stamp d p.val (Hdr.ofWord w)).vc = 1 ∨ (s.stamp d p.val (Hdr.ofWord w)).vc = 2)
    (hopen : ((s.die d).view.part (s.stamp d p.val (Hdr.ofWord w)).part.toNat).state = .opened)
    (hdrained : Map.lookD (s.die d).drained (s.stamp d p.val (Hdr.ofWord w)).key false = false)
    (hadmits : (s.passed d p w t).admits d p.val (s.stamp d p.val (Hdr.ofWord w)) = some g)
    (hi : i ∈ collectiveRows d p w ⟨bs, t⟩) (hwf : i.wf = true) :
    exec i s = .next ((((s.passed d p w t).takeCollective d ((s.die d).admitted p.val (s.stamp d p.val (Hdr.ofWord w)) bs g)).cutThrough
      (s.passed d p w t) d p.val t (s.die d).nextId).noteArrival d p.val (s.arrivalKey p.val (s.stamp d p.val (Hdr.ofWord w)))
      (s.stamp d p.val (Hdr.ofWord w)).bytes) := by
  have hp := State.beside_passed (s := s) (d := d) (p := p) (w := w) (t := t)
  have hid : ((s.passed d p w t).die d).nextId = (s.die d).nextId := (congrArg Die.nextId (State.die_setDie s.fresh d _)).trans rfl
  have hnow : ((s.passed d p w t).die d).now = (s.die d).now := hp.eq (·.now) fun _ => rfl
  have hview : ((s.passed d p w t).die d).view = (s.die d).view := hp.eq (·.view) fun _ => rfl
  have hdr : ((s.passed d p w t).die d).drained = (s.die d).drained := hp.eq (·.drained) fun _ => rfl
  have hkey (h : Hdr) : (s.passed d p w t).arrivalKey p.val h = s.arrivalKey p.val h := by simp only [State.arrivalKey, hp.isDown]
  rw [exec_collectiveRows hi hwf, State.arrive_passed htakes hfault,
    State.accept_collective hloop hmail hvc (by rwa [hview]) (by rwa [hdr]) hadmits, hkey]
  simp only [Die.admitted, hid, hnow]

end Sys2Proof.Machine
end

section
/-! Contributions, gathers, blend packets and abort heads (O50). -/

namespace Sys2Proof.Machine

theorem Die.enqueue_held (x : Die) (q : Held) :
    ∃ r, (x.enqueue q).held = x.held ++ [r] ∧ r.outPort = q.outPort ∧ r.data = q.data ∧ r.bin = q.bin := by
  unfold Die.enqueue
  extract_lets m y z
  have hheld : z.held = x.held := by
    unfold z
    split <;> rfl
  rw [hheld]
  exact ⟨_, rfl, rfl, rfl, rfl⟩

/-- An abort begins no pour. -/
theorem State.abortPour_sub {s : State} {d : DieId} (k : PourKey) (status : BitVec 4) (heads mark : Bool) :
    ∀ q ∈ ((s.abortPour d k status heads mark).die d).pours, q ∈ (s.die d).pours := by
  intro q hq
  cases h : (s.die d).record k with
  | some r => rwa [State.abortPour_recorded h] at hq
  | none =>
    rw [State.abortPour_pours h] at hq
    exact (List.mem_filter.1 hq).1

/-- An abort head at a home die waits for the next boundary (R294). -/
theorem State.abortIn_home {s : State} {d : DieId} {k : PourKey} {h : Hdr} {status : BitVec 4}
    (hhome : gHomeValid ((s.die d).view.group k.group.toNat).control = true) :
    s.abortIn d k h status =
      s.modDie d fun x => { x with abortDue := x.abortDue ++ [(k, status, h.mark, s.isSpine || h.vc == 1)] } := if_pos hhome

theorem State.abortIn_away {s : State} {d : DieId} {k : PourKey} {h : Hdr} {status : BitVec 4}
    (hhome : gHomeValid ((s.die d).view.group k.group.toNat).control = false) :
    s.abortIn d k h status = s.abortPour d k status (s.isSpine || h.vc == 1) h.mark := if_neg (Bool.eq_false_iff.1 hhome)

/-- What a boundary does with the one abort head that a home die has accepted (R294). -/
theorem State.settleAborts_one {s : State} {d : DieId} {k : PourKey} {status : BitVec 4} {heads mark : Bool}
    (hdue : (s.die d).abortDue = [(k, status, mark, heads)]) :
    s.settleAborts d = if (s.die d).deliveryReady k then s.modDie d fun x => { x with abortDue := [] }
      else (s.modDie d fun x => { x with abortDue := [] }).abortPour d k status heads mark := by
  have hready : ((s.modDie d fun x => { x with abortDue := [] }).die d).deliveryReady k = (s.die d).deliveryReady k := by
    rw [State.die_modDie]
    rfl
  unfold State.settleAborts
  rw [hdue]
  simp only [List.isEmpty_cons, Bool.false_eq_true, if_false, List.foldl_cons, List.foldl_nil, hready]

/-- Settles O50, by the kind of packet: what the die does with it is one rule for each kind, and a first input that meets no bridge pair
down changes nothing more (R573). That late contributions are discarded and answered with their completion word is log entry 34, the
packets counted in `grp.drop.closed` are log entry 50, the cut into packets log entry 51, the paths of abort heads log entry 122, and that
`DST` is not looked at log entry 126. -/
theorem poursTakeTheirPackets : Obligations.PoursTakeTheirPackets := by
  unfold Obligations.PoursTakeTheirPackets
  refine ⟨fun s d p w bs t g => ?packet, fun s d k st heads mark hrec ht => ?_, fun s d k st heads mark hdue => State.settleAborts_one hdue⟩
  case packet =>
    intro x h part grp c passed y pk u v does others closed bridged rows htakes hloop hfault hmail hvc hopen hdrained hadmits
    have hp : s.Beside Die.besideArrival d passed := State.beside_passed
    have hid : y.nextId = x.nextId := (congrArg Die.nextId (State.die_setDie s.fresh d _)).trans rfl
    have hu : u = passed.numbered d := by
      change passed.setDie d { y with nextId := x.nextId + 1 } = passed.setDie d { y with nextId := y.nextId + 1 }
      rw [hid]
    have hnumber : passed.Beside Die.besideSent d u := by
      rw [hu]
      exact .modDie rfl
    have hb : s.Beside Die.besideArrival d u := hp.trans (hu ▸ .modDie rfl)
    have hothers : ∀ {f : Die → Die}, passed.Beside f d v → others := fun hv e he => (hv.others e he).trans (hp.others e he)
    have hview : (u.die d).view = x.view := hb.eq (·.view) fun _ => rfl
    have hpview : (passed.die d).view = x.view := hp.eq (·.view) fun _ => rfl
    have hrecord : (u.die d).record = x.record := hb.eq (·.record) fun _ => rfl
    have hbefore {k : PourKey} {z : State} (hz : u.Beside Die.besideRecords d z) : passed.firstInput z d k = z :=
      (hnumber.records.trans hz).firstInput k
    refine ⟨fun i hi hwf => ?does, fun hdown hvc => ?stray, fun hup hno => ?foreign, fun hdown hvc => ?member, fun hup hvalid hpart => ?blend⟩
    case does => exact exec_collective htakes hfault hloop hmail hvc hopen hdrained hadmits hi hwf
    case stray => exact State.takeCollective_stray ((hp.isDown _).trans hdown) (by rw [hvc]; decide)
    case foreign => exact State.takeCollective_foreign ((hp.isDown _).trans hup) (by rwa [hpview])
    case member =>
      intro k cap live
      have hv : v = passed.firstInput (u.contribute d p.val h bs (pk.parked y.nextId)) d k := by
        rw [hu]
        exact State.takeCollective_member ((hp.isDown _).trans hdown) hvc
      refine ⟨fun hno => ?_, fun r l hvalid hpart hrank hhome => ?_⟩
      · rw [hv, State.contribute_foreign (by rwa [hview, hb.rankOf])]
        exact hbefore (State.beside_closed h).records
      · have hgives : u.Gives d h r l := hb.gives ⟨hvalid, hpart, hrank, hhome⟩
        have hrun : (u.die d).runSoFar = x.runSoFar := hb.eq (·.runSoFar) fun _ => rfl
        have hrelays : (u.die d).relayUps = x.relayUps := hb.eq (·.relayUps) fun _ => rfl
        have hlive (hl : live) : (u.die d).Live k := by rwa [Die.Live, hrecord]
        refine ⟨fun a ha hstatus => ?late, fun hl hend => ?ended, fun hl hend hhere hbridge hone => ?home, fun hl hend haway => ?away⟩
        case late =>
          rw [hv, State.contribute_late hgives (by rwa [hrecord]) hstatus]
          exact hbefore (State.beside_lateContribution ..)
        case ended =>
          rw [hv, State.contribute_ended hgives (hlive hl) (by rwa [hrun])]
          exact hbefore (State.beside_closed h).records
        case home =>
          obtain ⟨hpours, q, i, hq, hi, hlen, hlast⟩ := State.contribute_home (p := p.val) (data := bs)
            (w := pk.parked y.nextId) hgives (hlive hl) (by rwa [hrun]) (by rwa [hb.leafIndex]) (by rwa [hrelays])
          simp only [bridged, hvc, hdown, and_self, if_true] at hbridge
          rw [State.firstInput_of_bridged (hpours.bridged (hb.bridgedArrival hbridge))] at hv
          rw [hrun, hview] at hlen
          rw [← hv] at hpours hq
          exact ⟨q, i, hq, hi, hlen, hlast, hothers (hnumber.pours.trans hpours)⟩
        case away =>
          obtain ⟨hsame, o, ho, hkey, hrank, hkept, hlast⟩ := State.contribute_away (p := p.val) (data := bs)
            (w := pk.parked y.nextId) hgives (hlive hl) (by rwa [hrun]) (by rwa [hb.leafIndex])
          rw [hbefore hsame] at hv
          rw [Die.relayUpOf_kept, hrelays, hview] at hkept
          rw [← hv] at hsame ho
          exact ⟨o, ho, hkey, hrank, hkept, hlast, hothers (hnumber.records.trans hsame)⟩
    case blend =>
      intro hd k live
      have hvalid : gValid ((passed.die d).view.group h.group.toNat).control = true := by rwa [hpview]
      have hpart : gPart ((passed.die d).view.group h.group.toNat).control = h.part.toNat := by rwa [hpview]
      have hup' : passed.isDown p.val = false := (hp.isDown _).trans hup
      refine ⟨fun hpass => ?_, fun hpass => ?_⟩
      · have hpass : passed.passes d h hd = true := (hp.passes ..).trans hpass
        refine ⟨fun o ho => ?_, fun ho => ?_⟩
        · have hv : v = _ := State.takeCollective_passed (q := pk) hup' hvalid hpart hpass ((hp.passTo ..).trans ho)
          have hheld : (passed.die d).held = x.held := hp.eq (·.held) fun _ => rfl
          obtain ⟨q, hq, hport, hdata, hbin⟩ :=
            (passed.die d).enqueue_held { pk with outPort := o, data := le 32 hd.word.toNat ++ bs.drop 32, bin := .queue }
          refine ⟨q, ?_, hport, hdata, hbin, hothers (f := Die.besideSent) ?_⟩
          · rw [hv, State.die_modDie, ← hheld]
            exact hq
          · rw [hv]
            exact .modDie (Die.enqueue_besideSent _)
        · exact State.takeCollective_lost (q := pk) hup' hvalid hpart hpass ((hp.passTo ..).trans ho)
      · have hpass : passed.passes d h hd = false := (hp.passes ..).trans hpass
        have hv : v = passed.firstInput (u.blendIn d p.val h hd (bs.drop 32) (pk.parked y.nextId)) d k := by
          rw [hu]
          exact State.takeCollective_blend (q := pk) hup' hvalid hpart hpass
        have hlive (hl : live) : (u.die d).Live k := by rwa [Die.Live, hrecord]
        have hbridge (hbr : bridged) : u.Bridged d k := by
          simp only [bridged, hup, Bool.false_eq_true, and_false, if_false] at hbr
          exact hb.bridgedArrival hbr
        refine ⟨fun a ha hstatus => ⟨fun hkind => ?_, fun h4 h5 h6 => ?_⟩, fun hl hbr pl n hkind => ?input, fun hl hbr hkind => ?contribution,
          fun hl hkind => ?unknown, fun hkind => ?result, fun hkind => ?abort⟩
        · rw [hv, State.blendIn_lateRelay (by rwa [hrecord]) hstatus hkind]
          exact hbefore (State.beside_lateRelay ..)
        · rw [hv, State.blendIn_late (by rwa [hrecord]) hstatus h4 h5 h6]
          exact hbefore (State.Beside.modDie (Die.discard_besideSent ..)).records
        case input =>
          obtain ⟨hpours, q, i, hq, hi, hlen, hlast, hdata⟩ := State.blendIn_input_taken (p := p.val) (data := bs.drop 32)
            (w := pk.parked y.nextId) (hlive hl) (by rwa [hview])
          rw [State.firstInput_of_bridged (hpours.bridged (hbridge hbr))] at hv
          rw [← hv] at hpours hq
          exact ⟨q, i, hq, hi, hlen, hlast, fun hlong => hdata (by simpa using hlong), hothers (hnumber.pours.trans hpours)⟩
        case contribution =>
          obtain ⟨hpours, q, i, hq, hi, hlen, hlast⟩ := State.blendIn_contribution_taken (p := p.val) (data := bs.drop 32)
            (w := pk.parked y.nextId) (hlive hl) hkind
          rw [State.firstInput_of_bridged (hpours.bridged (hbridge hbr))] at hv
          rw [← hv] at hpours hq
          exact ⟨q, i, hq, hi, hlen, hlast, hothers (hnumber.pours.trans hpours)⟩
        case unknown =>
          rw [hv, State.blendIn_unknown (hlive hl) hkind]
          exact hbefore (State.beside_closed h).records
        case result =>
          rw [hv, State.blendIn_relayed hkind]
          exact hbefore (State.beside_relayDown ..)
        case abort =>
          intro heads
          rw [State.blendIn_abort hkind] at hv
          have hheads : (u.isSpine || h.vc == 1) = heads := by rw [hb.isSpine]
          refine ⟨fun hhome => ?_, fun hhome => ?_⟩
          · have hdue : (u.die d).abortDue = x.abortDue := hb.eq (·.abortDue) fun _ => rfl
            rw [hv, State.abortIn_home (by rwa [hview]), ← hdue, hheads, hbefore (.modDie rfl)]
            rfl
          · rw [hv, State.abortIn_away (by rwa [hview]), hheads]
            refine State.firstInput_of_sub fun q hq => ?_
            rw [← hnumber.eq (·.pours) fun _ => rfl]
            exact State.abortPour_sub _ _ _ _ q hq
  · obtain ⟨r, hr, hstatus⟩ := State.abortPour_record hrec st heads mark ht
    exact ⟨r, hr, hstatus, State.abortPour_ends hrec st heads mark⟩

end Sys2Proof.Machine
end
